-- ==== Sys2Proof/Word.lean ====
section
/-! DEFINITION. The bit-vector types of DEBLINK's ports and registers, under the spec's names for them. -/

namespace Sys2Proof

/-- A command word, format C (30_encoding.md R70). -/
abbrev Cmd := BitVec 72

/-- A response word, format RSP (30_encoding.md R70). -/
abbrev Resp := BitVec 35

/-- A 32-bit response operand, register or counter. -/
abbrev Word32 := BitVec 32

/-- A millisecond timestamp, modulo 2^32 (TIME_WIDTH, 00_scope.md R9). -/
abbrev Millis := BitVec 32

/-- A UQ1.15 fixed-point code (00_scope.md R14). -/
abbrev UQ15 := BitVec 16

/-- A digit code (10_state.md R23). -/
abbrev Digit := BitVec 4

/-- A 25-element pattern, element i at bit i (20_memory.md R50). -/
abbrev Pattern := BitVec 25

/-- A packed pixel word, G R B 0 (20_memory.md R57). -/
abbrev Pixel := BitVec 32

/-- A numeric value of indicator_mode (10_state.md R24). -/
abbrev ModeCode := BitVec 2

end Sys2Proof
end

