-- ==== Sys2Proof/Config.lean ====
section
/-! DEFINITION. The build-time parameters of 00_scope.md R9, the OPEN ones among them as opaque constants, and the free
value of the one draw the spec makes (43_blink_scheduler.md R148). -/

namespace Sys2Proof

/-- The build-time variant: SINGLE or MULTI (00_scope.md R3). -/
inductive Variant where
  | single
  | multi
deriving DecidableEq, Repr, Inhabited

/-- Three UQ1.15 channel codes (FIXED_COLOR, 00_scope.md R9). -/
structure Color where
  r : UQ15
  g : UQ15
  b : UQ15
deriving DecidableEq, Repr, Inhabited

/-- The timers of the Blink Scheduler, k = 0 and k = 1 (10_state.md R30). -/
inductive TimerId where
  | t0
  | t1
deriving DecidableEq, Repr

/-- The parameters a model takes (00_scope.md R9), fixed at build time (10_state.md R32). -/
structure Config where
  /-- VARIANT -/
  variant : Variant
  /-- DEBOUNCE_WINDOW_MS -/
  debounceWindowMs : Millis
  /-- PERIOD_SINGLE_MS -/
  periodSingleMs : Millis
  /-- PERIOD_R_MS -/
  periodRMs : Millis
  /-- PERIOD_GB_MS -/
  periodGbMs : Millis
  /-- RENDER_BRIGHTNESS, a UQ1.15 code -/
  renderBrightness : UQ15
  /-- FIXED_COLOR -/
  fixedColor : Color
  /-- FONT: the font ROM, entry d at index d (20_memory.md R50) -/
  font : Vector Pattern 10
  /-- FREE_RUNNING_TIMERS (43_blink_scheduler.md R147) -/
  freeRunningTimers : Bool
  /-- BLINK_PREEMPTIBLE (43_blink_scheduler.md R148) -/
  blinkPreemptible : Bool
deriving DecidableEq, Repr

/-- NUM_PIXELS is 25, five rows of five, and is not generalised (00_scope.md R10). -/
def Config.numPixels : Nat := 25

/-- FRAC_BITS (00_scope.md R9): the fraction bits of a UQ1.15 code. -/
def Config.fracBits : Nat := 15

/-- The value VARIANT was built with: OPEN, so a constant nothing is known of (log 2). -/
opaque Config.buildVariant : Variant

/-- The value FIXED_COLOR was built with: OPEN (log 2). -/
opaque Config.buildFixedColor : Color

/-- The contents FONT was built with: OPEN, the source's table is lost (91_not_in_source.md N1; log 2). -/
opaque Config.buildFont : Vector Pattern 10

/-- The free value of R148's draw: the n-th time a preempted blink drives, does timer k take the channels of the mode
sampled first (true) or of the mode at the drive (false)? Nothing constrains it (log 7). -/
opaque Config.blinkDraw : Nat → TimerId → Bool

/-- The parameters with the values R9 gives, over the three it leaves OPEN (00_scope.md R9; log 3). -/
def Config.withDefaults (variant : Variant) (fixedColor : Color) (font : Vector Pattern 10) : Config where
  variant := variant
  debounceWindowMs := 50
  periodSingleMs := 200
  periodRMs := 200
  periodGbMs := 333
  renderBrightness := 0x2666
  fixedColor := fixedColor
  font := font
  freeRunningTimers := false
  blinkPreemptible := false

/-- The configuration State.reset carries: the OPEN parameters unknown, the others at R9's values. -/
def Config.build : Config :=
  Config.withDefaults Config.buildVariant Config.buildFixedColor Config.buildFont

end Sys2Proof
end

