-- ==== Sys2Proof/Syntax.lean ====
section
/-! DEFINITION. The commands of spec/opcode_table.json, one constructor each, and the statements of the text syntax
(30_encoding.md R83, R84). -/

namespace Sys2Proof

/-- ButtonId, enumerated {A, B} (42_input_capture.md R121). -/
inductive Button where
  | A
  | B
deriving DecidableEq, Repr

/-- The commands of DEBLINK (30_encoding.md R75). Every field has exactly the width its encoding gives it, so each term
is a command the block accepts. -/
inductive Instr where
  /-- EDGE btn, ts: a falling edge on a button at a millisecond time (R76, R120) -/
  | edge (btn : Button) (ts : Millis)
  /-- BLINK_TICK now (R77, R140) -/
  | blinkTick (now : Millis)
  /-- RENDER_TICK (R78, R160) -/
  | renderTick
  /-- LOOKUP d: all 16 codes are legal encodings (R79, R100) -/
  | lookup (d : Digit)
  /-- ENCODE r, g, b, br, m (R80, R110) -/
  | encode (r g b br : UQ15) (m : BitVec 1)
deriving DecidableEq, Repr

/-- One statement of the text syntax, its operands the numbers as written (30_encoding.md R83, R84). -/
inductive AsmLine where
  | edge (btn : Button) (ts : Nat)
  | blinkTick (now : Nat)
  | renderTick
  | lookup (d : Nat)
  | encode (r g b br m : Nat)
  /-- the pseudo-command TICK now (R84) -/
  | tick (now : Nat)
deriving DecidableEq, Repr

/-- Why a text does not assemble: an assembler error, never an ILLEGAL command (30_encoding.md R83). -/
inductive AsmError where
  /-- a character no token of the syntax holds -/
  | badCharacter
  /-- tokens that form no statement of R83 -/
  | badStatement
  /-- an operand out of range for its field -/
  | operandOutOfRange
deriving DecidableEq, Repr

/-- Why a word decodes to ILLEGAL (30_encoding.md R73, R82). -/
inductive IllegalWord where
  /-- a reserved opcode: 0x0 or 0x6..0xF -/
  | reservedOpcode
  /-- a non-zero bit in a field that must be 0 -/
  | reservedField
deriving DecidableEq, Repr

end Sys2Proof
end

