-- ==== Sys2Proof/Decode.lean ====
section
/-! DEFINITION. The decoder of 30_encoding.md R73, total on every 72-bit word, the encoder of R76 to R80, the opcode table
as data, and the byte order of a serialised command (20_memory.md R58). -/

namespace Sys2Proof

/-- OP, bits [71:68] (R70). -/
def cmdOp (w : Cmd) : BitVec 4 := w.extractLsb' 68 4

/-- SUB, bits [67:64] (R70). -/
def cmdSub (w : Cmd) : BitVec 4 := w.extractLsb' 64 4

/-- DATA, bits [63:0] (R70). -/
def cmdData (w : Cmd) : BitVec 64 := w.extractLsb' 0 64

/-- The format C word of its three fields (R70). -/
def mkCmd (op sub : BitVec 4) (data : BitVec 64) : Cmd := op ++ sub ++ data

/-- The button of SUB[0]: 0 is A, 1 is B (R76). -/
def buttonOfBit (b : BitVec 1) : Button := if b = 0 then .A else .B

/-- SUB[0] of a button (R76). -/
def bitOfButton : Button → BitVec 1
  | .A => 0
  | .B => 1

/-- An instruction when the must-be-0 fields are 0, ILLEGAL otherwise (R73). -/
def whenZero (ok : Bool) (i : Instr) : Except IllegalWord Instr :=
  if ok then .ok i else .error .reservedField

/-- R73's decode, case by case of OP. -/
def decode (w : Cmd) : Except IllegalWord Instr :=
  let sub := cmdSub w
  let data := cmdData w
  match (cmdOp w).toNat with
  | 1 => whenZero (sub.extractLsb' 1 3 = 0 && data.extractLsb' 32 32 = 0)
      (.edge (buttonOfBit (sub.extractLsb' 0 1)) (data.extractLsb' 0 32))
  | 2 => whenZero (sub = 0 && data.extractLsb' 32 32 = 0) (.blinkTick (data.extractLsb' 0 32))
  | 3 => whenZero (sub = 0 && data = 0) .renderTick
  | 4 => whenZero (data = 0) (.lookup sub)
  | 5 => whenZero (sub.extractLsb' 1 3 = 0)
      (.encode (data.extractLsb' 48 16) (data.extractLsb' 32 16) (data.extractLsb' 16 16) (data.extractLsb' 0 16)
        (sub.extractLsb' 0 1))
  | _ => .error .reservedOpcode

/-- The word of a command (R75 to R80). -/
def encode : Instr → Cmd
  | .edge btn ts => mkCmd 1 ((0 : BitVec 3) ++ bitOfButton btn) ((0 : BitVec 32) ++ ts)
  | .blinkTick now => mkCmd 2 0 ((0 : BitVec 32) ++ now)
  | .renderTick => mkCmd 3 0 0
  | .lookup d => mkCmd 4 d 0
  | .encode r g b br m => mkCmd 5 ((0 : BitVec 3) ++ m) (r ++ g ++ b ++ br)

/-- A row of spec/opcode_table.json: a word is the row's when its masked bits are the pattern. -/
structure TableRow where
  pattern : Cmd
  mask : Cmd
deriving DecidableEq, Repr

/-- The match and mask of each command (R76 to R80 and spec/opcode_table.json). -/
def tableRow : Instr → TableRow
  | .edge _ _ => ⟨0x100000000000000000, 0xFEFFFFFFFF00000000⟩
  | .blinkTick _ => ⟨0x200000000000000000, 0xFFFFFFFFFF00000000⟩
  | .renderTick => ⟨0x300000000000000000, 0xFFFFFFFFFFFFFFFFFF⟩
  | .lookup _ => ⟨0x400000000000000000, 0xF0FFFFFFFFFFFFFFFF⟩
  | .encode _ _ _ _ _ => ⟨0x500000000000000000, 0xFE0000000000000000⟩

/-- The five rows of spec/opcode_table.json, in its order. -/
def opcodeTable : List TableRow :=
  [tableRow (.edge .A 0), tableRow (.blinkTick 0), tableRow .renderTick, tableRow (.lookup 0), tableRow (.encode 0 0 0 0 0)]

/-- Is w one of the row's words? -/
def TableRow.holds (r : TableRow) (w : Cmd) : Bool := decide (w &&& r.mask = r.pattern)

/-- The nine bytes of a command as a host serialises them, the most significant first (20_memory.md R58). -/
def bytesOfCmd (w : Cmd) : List (BitVec 8) :=
  [w.extractLsb' 64 8, w.extractLsb' 56 8, w.extractLsb' 48 8, w.extractLsb' 40 8, w.extractLsb' 32 8,
    w.extractLsb' 24 8, w.extractLsb' 16 8, w.extractLsb' 8 8, w.extractLsb' 0 8]

/-- The command word of nine serialised bytes; any other count is no command word (R71, 20_memory.md R58). -/
def cmdOfBytes : List (BitVec 8) → Option Cmd
  | [b8, b7, b6, b5, b4, b3, b2, b1, b0] => some (b8 ++ b7 ++ b6 ++ b5 ++ b4 ++ b3 ++ b2 ++ b1 ++ b0)
  | _ => none

/-- The command word whose bits are w, the bits from nbits on being 0. A command is one 72-bit word on a parallel port
(R70, R71), so bit 0 of the table's number is cmd[0] (log 12). -/
def fetchWord (nbits w : Nat) : Cmd := BitVec.ofNat 72 (w % 2 ^ nbits)

/-- What the decoder reads from the instruction whose bits are w; none where it answers ILLEGAL. -/
def decodeTableWord (nbits w : Nat) : Option Instr := (decode (fetchWord nbits w)).toOption

end Sys2Proof
end

