-- ==== Sys2Proof/Machine/State.lean ====
section
/-! DEFINITION. DEBLINK's state as plain data, its value after reset, and the reasons a step could stop. -/

namespace Sys2Proof.Machine

/-- DEBLINK has no traps, exceptions or fault state (60_exceptions.md R200), so there is no fault: nothing raises one. -/
inductive Fault where
deriving DecidableEq, Repr

/-- Why a step would be refused. -/
inductive Refusal where
  /-- Raised by an arm of exec for an instruction that has no meaning yet; safe. No arm of this model raises it. -/
  | notModelled (mnemonic : String)
deriving DecidableEq, Repr

/-- The outcome codes of a response (30_encoding.md R74). Codes 4 to 7 are reserved and have no name here. -/
inductive Status where
  | ok
  | spuriousEdge
  | invalidDigit
  | illegalCmd
deriving DecidableEq, Repr

/-- The indicator outputs (00_scope.md R15): LED in SINGLE; R, G and B in MULTI. -/
inductive Channel where
  | led
  | r
  | g
  | b
deriving DecidableEq, Repr

/-- A blink timer's two fields (10_state.md R31). -/
structure Timer where
  lastToggle : Millis
  phase : Bool
deriving DecidableEq, Repr

/-- last_displayed, a valid bit and a digit: valid = 0 encodes None (10_state.md R28). -/
structure LastDisplayed where
  valid : Bool
  digit : Digit
deriving DecidableEq, Repr

/-- What the two-step blink keeps between its sample and its drive (43_blink_scheduler.md R148): the mode sampled first,
and bit k of fired where timer k is pending. -/
structure BlinkPending where
  mode : ModeCode
  fired : BitVec 2
deriving DecidableEq, Repr

/-- One presentation of the host at DEBLINK's inputs, in the host's order (30_encoding.md R72). -/
inductive PortEvent where
  /-- a word on the command port cmd[71:0] (R70) -/
  | cmd (w : Cmd)
  /-- the reset input driven to a level, true asserting it (70_reset_and_hazards.md R230) -/
  | rst (level : Bool)
  /-- the moment at which a preempted blink goes on to its second step (43_blink_scheduler.md R148; log 8) -/
  | blinkDrive
deriving DecidableEq, Repr

/-- Everything the spec gives DEBLINK (10_state.md R34), with what the host has presented and what the block has answered.
INVENTORY.md lists every field with its rule and its reset value. -/
structure State where
  /-- the build-time parameters and the font ROM: read only (10_state.md R32, R33; log 1) -/
  cfg : Config
  /-- R23 -/
  currentDigit : Digit
  /-- R24 -/
  indicatorMode : ModeCode
  /-- R25 -/
  lastEventTime : Millis
  /-- press_count[A], R26 -/
  pressCountA : Word32
  /-- press_count[B], R26 -/
  pressCountB : Word32
  /-- R27: bit 0 R or LED, bit 1 G, bit 2 B -/
  indOut : BitVec 3
  /-- R28 -/
  lastDisplayed : LastDisplayed
  /-- last_toggle[0] and phase[0], R31 -/
  timer0 : Timer
  /-- last_toggle[1] and phase[1], R31; no timer of SINGLE -/
  timer1 : Timer
  /-- every pixel word pushed since power-on, oldest first (20_memory.md R54, R56) -/
  pixStream : List Pixel
  /-- every response produced, oldest first (60_exceptions.md R218; log 5) -/
  responses : List Resp
  /-- the level of the reset input (70_reset_and_hazards.md R230) -/
  rst : Bool
  /-- what the host has presented and the block has not taken yet, the next one first (R72; log 4) -/
  inputs : List PortEvent
  /-- the hidden state of a preempted blink (R148) -/
  blinkPending : Option BlinkPending
  /-- the model's own: how many draws R148 has made (log 7) -/
  draws : Nat
deriving DecidableEq, Repr

/-- The timer state after reset (70_reset_and_hazards.md R231). -/
def Timer.reset : Timer := ⟨0, false⟩

/-- last_displayed after reset: None. The digit beside valid = 0 is arbitrary and never read (10_state.md R28; log 6). -/
def LastDisplayed.reset : LastDisplayed := ⟨false, 0⟩

/-- DEBLINK at power-on with its reset input released: the values of 70_reset_and_hazards.md R231, an empty pixel stream
(20_memory.md R56), and nothing presented. -/
def State.reset : State where
  cfg := Config.build
  currentDigit := 0
  indicatorMode := 0
  lastEventTime := 0
  pressCountA := 0
  pressCountB := 0
  indOut := 0
  lastDisplayed := LastDisplayed.reset
  timer0 := Timer.reset
  timer1 := Timer.reset
  pixStream := []
  responses := []
  rst := false
  inputs := []
  blinkPending := none
  draws := 0

end Sys2Proof.Machine
end

