-- ==== Sys2Proof/Machine/Flags.lean ====
section
/-! DEFINITION. What DEBLINK has in the place of flags: it stores none (10_state.md R22), and reports each command's outcome
in that command's response word (30_encoding.md R70, R74). -/

namespace Sys2Proof.Machine

/-- STATUS of an outcome (30_encoding.md R74). -/
def statusCode : Status → BitVec 3
  | .ok => 0
  | .spuriousEdge => 1
  | .invalidDigit => 2
  | .illegalCmd => 3

/-- The response word {STATUS, RDATA} (30_encoding.md R70, R74). -/
def respWord (st : Status) (rdata : Word32) : Resp := statusCode st ++ rdata

/-- STATUS, bits [34:32] of a response (R70). -/
def respStatus (w : Resp) : BitVec 3 := w.extractLsb' 32 3

/-- RDATA, bits [31:0] of a response (R70). -/
def respData (w : Resp) : Word32 := w.extractLsb' 0 32

end Sys2Proof.Machine
end

