-- ==== Sys2Proof/Machine/Operands.lean ====
section
/-! DEFINITION. The arithmetic on command operands: time differences, digit steps, mode names, the timer table's columns
that depend on the mode, and the channels' places in ind_out. -/

namespace Sys2Proof.Machine

/-- now -_32 last, modulo 2^32 (00_scope.md R12; 42_input_capture.md R122, 43_blink_scheduler.md R144). -/
def elapsed (now last : Millis) : Millis := now - last

/-- Is an edge at ts inside the debounce window after last (42_input_capture.md R122)? -/
def insideWindow (window ts last : Millis) : Bool := decide ((elapsed ts last).toNat < window.toNat)

/-- (d + 1) mod 10 on naturals (42_input_capture.md R124). -/
def digitUp (d : Digit) : Digit := BitVec.ofNat 4 ((d.toNat + 1) % 10)

/-- (d + 9) mod 10 on naturals (42_input_capture.md R124). -/
def digitDown (d : Digit) : Digit := BitVec.ofNat 4 ((d.toNat + 9) % 10)

/-- IDLE of SINGLE (10_state.md R24). -/
def modeIdle : ModeCode := 0
/-- ACTIVE of SINGLE (10_state.md R24). -/
def modeActive : ModeCode := 1
/-- RED_ONLY of MULTI (10_state.md R24). -/
def modeRedOnly : ModeCode := 0
/-- GREEN_ONLY of MULTI (10_state.md R24). -/
def modeGreenOnly : ModeCode := 1
/-- BLUE_ONLY of MULTI (10_state.md R24). -/
def modeBlueOnly : ModeCode := 2

/-- MODE_A and MODE_B (42_input_capture.md R125). -/
def pressMode : Variant → Button → ModeCode
  | .single, _ => modeActive
  | .multi, .A => modeGreenOnly
  | .multi, .B => modeBlueOnly

/-- The timers of a variant, in ascending k (43_blink_scheduler.md R141, R146). -/
def variantTimers : Variant → List TimerId
  | .single => [.t0]
  | .multi => [.t0, .t1]

/-- P_k (43_blink_scheduler.md R141). -/
def period (c : Config) (k : TimerId) : Millis :=
  match c.variant, k with
  | .single, _ => c.periodSingleMs
  | .multi, .t0 => c.periodRMs
  | .multi, .t1 => c.periodGbMs

/-- uses_k(mode); an unused mode value uses no timer (43_blink_scheduler.md R141; 92_eei_decisions.md D40). -/
def usesTimer (v : Variant) (k : TimerId) (m : ModeCode) : Bool :=
  match v, k with
  | .single, .t0 => m == modeActive
  | .single, .t1 => false
  | .multi, .t0 => m == modeRedOnly
  | .multi, .t1 => m == modeGreenOnly || m == modeBlueOnly

/-- chans_k(mode) (43_blink_scheduler.md R141; 92_eei_decisions.md D40). -/
def timerChannels (v : Variant) (k : TimerId) (m : ModeCode) : List Channel :=
  match v, k with
  | .single, .t0 => if m == modeActive then [.led] else []
  | .single, .t1 => []
  | .multi, .t0 => if m == modeRedOnly then [.r] else []
  | .multi, .t1 => if m == modeGreenOnly then [.g] else if m == modeBlueOnly then [.b] else []

/-- Bit k of the fired mask (30_encoding.md R74). -/
def firedBit : TimerId → BitVec 2
  | .t0 => 1
  | .t1 => 2

/-- The channel's bit of ind_out (10_state.md R27). -/
def channelBit : Channel → BitVec 3
  | .led => 1
  | .r => 1
  | .g => 2
  | .b => 4

/-- The bits of ind_out that are outputs; SINGLE hardwires [2:1] to 0 (10_state.md R27). -/
def outputBits : Variant → BitVec 3
  | .single => 1
  | .multi => 7

/-- ind_out with a channel's bit at a level; a bit the variant hardwires takes no write (10_state.md R27). -/
def driveBit (v : Variant) (ch : Channel) (lvl : Bool) (out : BitVec 3) : BitVec 3 :=
  let bit := channelBit ch &&& outputBits v
  if lvl then out ||| bit else out &&& ~~~bit

end Sys2Proof.Machine
end

