-- ==== Sys2Proof/Machine/Ops.lean ====
section
/-! DEFINITION. The named operations every meaning is built from: the primitives of 00_scope.md R13 (FontRead, Push, Drive,
respond), the timers' accessors and the effect of the reset input. DEBLINK takes no exception and returns from none
(60_exceptions.md R200, R207, R208): an error condition is a status that respond reports. -/

namespace Sys2Proof.Machine

/-- respond(status, data): the command's response appears on the response port (30_encoding.md R74). -/
def respond (st : Status) (rdata : Word32) (s : State) : State :=
  { s with responses := s.responses ++ [respWord st rdata] }

/-- FontRead(d): entry d, or none for InvalidDigit (20_memory.md R51). -/
def fontRead (c : Config) (d : Digit) : Option Pattern := c.font[d.toNat]?

/-- Push(w): one word at the end of the pixel stream (20_memory.md R54). -/
def push (w : Pixel) (s : State) : State := { s with pixStream := s.pixStream ++ [w] }

/-- Push each word of a list in order (44_render_driver.md R162). -/
def pushAll : List Pixel → State → State
  | [], s => s
  | w :: ws, s => pushAll ws (push w s)

/-- Drive(ch, lvl) (10_state.md R27). -/
def drive (ch : Channel) (lvl : Bool) (s : State) : State :=
  { s with indOut := driveBit s.cfg.variant ch lvl s.indOut }

/-- Drive every channel of a list with one level (43_blink_scheduler.md R145). -/
def driveAll : List Channel → Bool → State → State
  | [], _, s => s
  | ch :: chs, lvl, s => driveAll chs lvl (drive ch lvl s)

/-- Timer k's fields (10_state.md R31). -/
def getTimer (k : TimerId) (s : State) : Timer :=
  match k with
  | .t0 => s.timer0
  | .t1 => s.timer1

/-- Write timer k's fields (10_state.md R31). -/
def setTimer (k : TimerId) (t : Timer) (s : State) : State :=
  match k with
  | .t0 => { s with timer0 := t }
  | .t1 => { s with timer1 := t }

/-- press_count[b] (10_state.md R26). -/
def pressCount (b : Button) (s : State) : Word32 :=
  match b with
  | .A => s.pressCountA
  | .B => s.pressCountB

/-- press_count[b] <- press_count[b] +_32 1 (42_input_capture.md R126). -/
def countPress (b : Button) (s : State) : State :=
  match b with
  | .A => { s with pressCountA := s.pressCountA + 1 }
  | .B => { s with pressCountB := s.pressCountB + 1 }

/-- Asserting rst: every field takes its R231 value, the words pushed and the responses given stand, no blink is under
way, and what the host presents next is not touched (70_reset_and_hazards.md R230, R231; 20_memory.md R56; log 5, log 8). -/
def assertReset (s : State) : State :=
  { State.reset with
    cfg := s.cfg
    pixStream := s.pixStream
    responses := s.responses
    rst := true
    inputs := s.inputs
    draws := s.draws }

/-- Releasing rst changes nothing else: the next command sees the R231 state (70_reset_and_hazards.md R230). -/
def releaseReset (s : State) : State := { s with rst := false }

end Sys2Proof.Machine
end

