-- ==== Sys2Proof/Machine/BlinkScheduler.lean ====
section
/-! DEFINITION. BLINK_TICK, the Blink Scheduler's command, whole with BLINK_PREEMPTIBLE false and as its two steps with it
true (43_blink_scheduler.md). -/

namespace Sys2Proof.Machine

/-- Is timer k due in mode m at time now (43_blink_scheduler.md R140, R144, R147)? -/
def timerDue (k : TimerId) (m : ModeCode) (now : Millis) (s : State) : Bool :=
  (usesTimer s.cfg.variant k m || s.cfg.freeRunningTimers) &&
    decide ((period s.cfg k).toNat ≤ (elapsed now (getTimer k s).lastToggle).toNat)

/-- A timer that fires: the other phase, and now as its last toggle (43_blink_scheduler.md R144). -/
def toggled (now : Millis) (t : Timer) : Timer := ⟨now, !t.phase⟩

/-- Flip timer k and set its last toggle to now (43_blink_scheduler.md R144). -/
def toggleTimer (k : TimerId) (now : Millis) (s : State) : State := setTimer k (toggled now (getTimer k s)) s

/-- Drive timer k's channels of mode m with the timer's phase (43_blink_scheduler.md R145). -/
def driveTimer (k : TimerId) (m : ModeCode) (s : State) : State :=
  driveAll (timerChannels s.cfg.variant k m) (getTimer k s).phase s

/-- R140's loop over the timers, in ascending k: what an atomic blink does, with the mask of the timers fired so far. -/
def blinkLoop (m : ModeCode) (now : Millis) : List TimerId → BitVec 2 → State → State × BitVec 2
  | [], fired, s => (s, fired)
  | k :: ks, fired, s =>
    if timerDue k m now s then blinkLoop m now ks (fired ||| firedBit k) (driveTimer k m (toggleTimer k now s))
    else blinkLoop m now ks fired s

/-- BLINK_TICK as one atomic action (43_blink_scheduler.md R140), the mode read once (R143). -/
def blinkAtomic (now : Millis) (s : State) : State :=
  let r := blinkLoop s.indicatorMode now (variantTimers s.cfg.variant) 0 s
  respond .ok (r.2.setWidth 32) r.1

/-- The sample's loop: the same tests and toggles, nothing driven (43_blink_scheduler.md R148). -/
def sampleLoop (m : ModeCode) (now : Millis) : List TimerId → BitVec 2 → State → State × BitVec 2
  | [], fired, s => (s, fired)
  | k :: ks, fired, s =>
    if timerDue k m now s then sampleLoop m now ks (fired ||| firedBit k) (toggleTimer k now s)
    else sampleLoop m now ks fired s

/-- BLINK_SAMPLE(now): the tests and toggles, kept for the drive with the mode sampled (43_blink_scheduler.md R148). -/
def blinkSample (now : Millis) (s : State) : State :=
  let r := sampleLoop s.indicatorMode now (variantTimers s.cfg.variant) 0 s
  { r.1 with blinkPending := some ⟨s.indicatorMode, r.2⟩ }

/-- The mode whose channels pending timer k drives: R148's draw between m1, sampled first, and m2, now (log 7). -/
def drawnMode (p : BlinkPending) (k : TimerId) (s : State) : ModeCode :=
  if Config.blinkDraw s.draws k then p.mode else s.indicatorMode

/-- The drive's loop over the pending timers (43_blink_scheduler.md R148). -/
def driveLoop (p : BlinkPending) : List TimerId → State → State
  | [], s => s
  | k :: ks, s =>
    driveLoop p ks (if p.fired &&& firedBit k = 0 then s else driveTimer k (drawnMode p k s) s)

/-- BLINK_DRIVE of a pending blink: its drives and its response (43_blink_scheduler.md R148). -/
def blinkDrive (p : BlinkPending) (s : State) : State :=
  let s1 := driveLoop p (variantTimers s.cfg.variant) s
  respond .ok (p.fired.setWidth 32) { s1 with blinkPending := none, draws := s1.draws + 1 }

/-- The second step of a blink that is under way; nothing where none is (43_blink_scheduler.md R148). -/
def finishBlink (s : State) : State :=
  match s.blinkPending with
  | none => s
  | some p => blinkDrive p s

/-- BLINK_TICK: atomic, or its first step where it can be preempted (43_blink_scheduler.md R140, R148). -/
def blinkTick (now : Millis) (s : State) : State :=
  if s.cfg.blinkPreemptible then blinkSample now s else blinkAtomic now s

/-- BLINK_TICK now (43_blink_scheduler.md R140). -/
def execBlinkTick (now : Millis) (s : State) : Host.Outcome State Fault Refusal := .next (blinkTick now s)

end Sys2Proof.Machine
end

