-- ==== Sys2Proof/Machine/FontTable.lean ====
section
/-! DEFINITION. LOOKUP, the Digit Font Table's command (40_font_lut.md). -/

namespace Sys2Proof.Machine

/-- LOOKUP d's response and nothing else (40_font_lut.md R100, R101). -/
def lookupDigit (d : Digit) (s : State) : State :=
  match fontRead s.cfg d with
  | some pat => respond .ok (pat.setWidth 32) s
  | none => respond .invalidDigit 0 s

/-- LOOKUP d (40_font_lut.md R100). -/
def execLookup (d : Digit) (s : State) : Host.Outcome State Fault Refusal := .next (lookupDigit d s)

end Sys2Proof.Machine
end

