-- ==== Sys2Proof/Machine/InputCapture.lean ====
section
/-! DEFINITION. EDGE, the Input Capture / Debounce unit's command (42_input_capture.md). -/

namespace Sys2Proof.Machine

/-- PostPressDrive(mode): steady-on in SINGLE, channel-select in MULTI (42_input_capture.md R127). -/
def postPressDrive (mode : ModeCode) (s : State) : State :=
  match s.cfg.variant with
  | .single => drive .led true s
  | .multi => drive .b (mode == modeBlueOnly) (drive .g (mode == modeGreenOnly) (drive .r (mode == modeRedOnly) s))

/-- The digit after a press: A increments it, B decrements it (42_input_capture.md R121, R124). -/
def pressDigit : Button → Digit → Digit
  | .A, d => digitUp d
  | .B, d => digitDown d

/-- The writes of an accepted press (42_input_capture.md R120, R123 to R127). -/
def acceptPress (btn : Button) (ts : Millis) (s : State) : State :=
  let s1 := { s with
    lastEventTime := ts
    currentDigit := pressDigit btn s.currentDigit
    indicatorMode := pressMode s.cfg.variant btn }
  let s2 := countPress btn s1
  postPressDrive s2.indicatorMode s2

/-- Does the debounce gate reject an edge at ts (42_input_capture.md R122)? One gate for both buttons (R128). -/
def gateRejects (ts : Millis) (s : State) : Bool := insideWindow s.cfg.debounceWindowMs ts s.lastEventTime

/-- One falling edge: dropped by the gate, or a press (42_input_capture.md R120). -/
def edgeEvent (btn : Button) (ts : Millis) (s : State) : State :=
  if gateRejects ts s then respond .spuriousEdge (s.currentDigit.setWidth 32) s
  else respond .ok ((acceptPress btn ts s).currentDigit.setWidth 32) (acceptPress btn ts s)

/-- EDGE btn, ts (42_input_capture.md R120). -/
def execEdge (btn : Button) (ts : Millis) (s : State) : Host.Outcome State Fault Refusal := .next (edgeEvent btn ts s)

end Sys2Proof.Machine
end

