-- ==== Sys2Proof/Machine/PixelEncoder.lean ====
section
/-! DEFINITION. ENCODE and the encoding function Enc it shares with the Render Driver (41_pixel_encoder.md). -/

namespace Sys2Proof.Machine

/-- comp(br, c, m): the exact product, floored by a shift of 2 * FRAC_BITS = 30, clamped to 255 (41_pixel_encoder.md R110,
R111; truncation by 90_conflicts.md C2). -/
def comp (br c : UQ15) (m : BitVec 1) : BitVec 8 :=
  BitVec.ofNat 8 (min 255 ((255 * br.toNat * c.toNat * m.toNat) >>> (2 * Config.fracBits)))

/-- Enc: green, red, blue and a zero byte, from the most significant byte down (41_pixel_encoder.md R112). -/
def enc (r g b br : UQ15) (m : BitVec 1) : Pixel := comp br g m ++ comp br r m ++ comp br b m ++ (0 : BitVec 8)

/-- ENCODE r, g, b, br, m (41_pixel_encoder.md R110). -/
def execEncode (r g b br : UQ15) (m : BitVec 1) (s : State) : Host.Outcome State Fault Refusal :=
  .next (respond .ok (enc r g b br m) s)

end Sys2Proof.Machine
end

