-- ==== Sys2Proof/Machine/RenderDriver.lean ====
section
/-! DEFINITION. RENDER_TICK, the Render Driver's command (44_render_driver.md). -/

namespace Sys2Proof.Machine

/-- Word i of a frame: Enc of the fixed colour and brightness, masked by pattern element i (44_render_driver.md R162). -/
def frameWord (c : Config) (pat : Pattern) (i : Nat) : Pixel :=
  enc c.fixedColor.r c.fixedColor.g c.fixedColor.b c.renderBrightness (pat.extractLsb' i 1)

/-- The 25 words of a frame, in element order (44_render_driver.md R162). -/
def frame (c : Config) (pat : Pattern) : List Pixel := (List.range Config.numPixels).map (frameWord c pat)

/-- Is d the digit displayed last? None equals no digit (44_render_driver.md R161). -/
def alreadyDisplayed (d : Digit) (s : State) : Bool := s.lastDisplayed.valid && s.lastDisplayed.digit == d

/-- RENDER_TICK with the digit read once, as d (44_render_driver.md R160 to R164): unchanged before invalid
(60_exceptions.md R204). -/
def renderDigit (d : Digit) (s : State) : State :=
  if alreadyDisplayed d s then respond .ok 0 s
  else
    match fontRead s.cfg d with
    | none => respond .invalidDigit 0 s
    | some pat => respond .ok 25 { pushAll (frame s.cfg pat) s with lastDisplayed := ⟨true, d⟩ }

/-- RENDER_TICK (44_render_driver.md R160). -/
def execRenderTick (s : State) : Host.Outcome State Fault Refusal := .next (renderDigit s.currentDigit s)

end Sys2Proof.Machine
end

