-- ==== Sys2Proof/Machine/Dispatch.lean ====
section
/-! DEFINITION. One arm per command of spec/opcode_table.json, each one call of its meaning. -/

namespace Sys2Proof.Machine

def exec (i : Instr) (s : State) : Host.Outcome State Fault Refusal :=
  match i with
  | .edge btn ts => Sys2Proof.Machine.execEdge btn ts s
  | .blinkTick now => Sys2Proof.Machine.execBlinkTick now s
  | .renderTick => Sys2Proof.Machine.execRenderTick s
  | .lookup d => Sys2Proof.Machine.execLookup d s
  | .encode r g b br m => Sys2Proof.Machine.execEncode r g b br m s

end Sys2Proof.Machine
end

