-- ==== Sys2Proof/Machine/Ports.lean ====
section
/-! DEFINITION. What the host sees and presents: the observation ports and the indicator pins, and how the block takes
the next presentation (10_state.md R27, R29; 30_encoding.md R70, R72; 70_reset_and_hazards.md R230). -/

namespace Sys2Proof.Machine

/-- obs_digit (10_state.md R29). -/
def obsDigit (s : State) : Digit := s.currentDigit
/-- obs_mode (10_state.md R29). -/
def obsMode (s : State) : ModeCode := s.indicatorMode
/-- obs_last_event (10_state.md R29). -/
def obsLastEvent (s : State) : Millis := s.lastEventTime
/-- obs_count_a (10_state.md R29). -/
def obsCountA (s : State) : Word32 := s.pressCountA
/-- obs_count_b (10_state.md R29). -/
def obsCountB (s : State) : Word32 := s.pressCountB

/-- The indicator pins: ind_out, with the bits SINGLE hardwires reading 0 (10_state.md R27). -/
def indPins (s : State) : BitVec 3 := s.indOut &&& outputBits s.cfg.variant

/-- The response port: the response given last, none before the first (30_encoding.md R70). -/
def respPort (s : State) : Option Resp := s.responses.getLast?

/-- Does the word decode to an EDGE, the one command a preempted blink lets in (43_blink_scheduler.md R148)? -/
def isEdgeWord (w : Cmd) : Bool :=
  match decode w with
  | .ok (.edge _ _) => true
  | _ => false

/-- An accepted command word: its command runs, and an ILLEGAL word is answered ILLEGAL_CMD with no state change
(30_encoding.md R73, R82; log 11). -/
def runWord (w : Cmd) (s : State) : Host.Outcome State Fault Refusal :=
  match decode w with
  | .ok i => exec i s
  | .error _ => .next (respond .illegalCmd 0 s)

/-- Must a pending blink drive before this presentation is taken? Only EDGE comes between its two steps, so any other
command word waits for the drive (43_blink_scheduler.md R148). -/
def waitsForBlink (e : PortEvent) (s : State) : Bool :=
  match e with
  | .cmd w => s.blinkPending.isSome && !s.rst && !isEdgeWord w
  | .rst _ => false
  | .blinkDrive => false

/-- One presentation taken. While rst is asserted a command is ignored, with no response, and no blink is under way
(70_reset_and_hazards.md R230, 60_exceptions.md R216 H7). -/
def takeEvent (e : PortEvent) (s : State) : Host.Outcome State Fault Refusal :=
  match e with
  | .cmd w => if s.rst then .next s else runWord w s
  | .rst true => .next (assertReset s)
  | .rst false => .next (releaseReset s)
  | .blinkDrive => .next (if s.rst then s else finishBlink s)

/-- One step of the block: the host's next presentation, a pending blink's drive first where it must come first; with
nothing presented a pending blink ends, and otherwise the block holds its state (30_encoding.md R72, 60_exceptions.md
R217; log 4, log 8). -/
def takeNext (s : State) : Host.Outcome State Fault Refusal :=
  match s.inputs with
  | [] => .next (if s.rst then s else finishBlink s)
  | e :: rest => if waitsForBlink e s then .next (finishBlink s) else takeEvent e { s with inputs := rest }

/-- s with a command word presented so that the very next step takes it: first in line, rst released, no blink to end
first. -/
def presentWord (w : Cmd) (s : State) : State :=
  { s with inputs := .cmd w :: s.inputs, rst := false, blinkPending := none }

end Sys2Proof.Machine
end

