-- ==== Sys2Proof/Machine/Step.lean ====
section
/-! DEFINITION. The step function, and the placing of a word where the next step takes it. -/

namespace Sys2Proof.Machine

/-- One step of DEBLINK (70_reset_and_hazards.md R250: a command is one step). -/
def step (s : State) : Host.Outcome State Fault Refusal := takeNext s

/-- s with the instruction whose bits are w presented as the next command. -/
def State.withFetchWord (s : State) (nbits w : Nat) : State := presentWord (fetchWord nbits w) s

end Sys2Proof.Machine
end

