-- ==== Sys2Proof/WellFormed.lean ====
section
/-! DEFINITION. What is checked of a text statement's operands (30_encoding.md R83) and of a configuration. A term of
Instr needs no check: its fields have the encoding's own widths. -/

namespace Sys2Proof

/-- Does n fit an unsigned field of w bits? -/
def fits (w n : Nat) : Bool := decide (n < 2 ^ w)

/-- Every operand of the statement is in range for its field (30_encoding.md R76 to R80, R83). -/
def AsmLine.wellFormed : AsmLine → Bool
  | .edge _ ts => fits 32 ts
  | .blinkTick now => fits 32 now
  | .renderTick => true
  | .lookup d => fits 4 d
  | .encode r g b br m => fits 16 r && fits 16 g && fits 16 b && fits 16 br && fits 1 m
  | .tick now => fits 32 now

/-- Every blink period is at least 1 ms: 43_blink_scheduler.md R140 says so of every P_k in its corner cases. -/
def Config.wellFormed (c : Config) : Bool :=
  decide (c.periodSingleMs ≠ 0) && decide (c.periodRMs ≠ 0) && decide (c.periodGbMs ≠ 0)

end Sys2Proof
end

