-- ==== Sys2Proof/Machine/Assembler.lean ====
section
/-! DEFINITION. The text syntax of 30_encoding.md R83 and the pseudo-command TICK of R84: from a text to command words. Where
the spec is silent (blanks, letter case, empty lines) log 13 says what is taken. -/

namespace Sys2Proof.Machine

/-- The commands of a statement whose operands are in range; TICK is RENDER_TICK then BLINK_TICK (R84). -/
def expandLine : AsmLine → List Instr
  | .edge btn ts => [.edge btn (BitVec.ofNat 32 ts)]
  | .blinkTick now => [.blinkTick (BitVec.ofNat 32 now)]
  | .renderTick => [.renderTick]
  | .lookup d => [.lookup (BitVec.ofNat 4 d)]
  | .encode r g b br m =>
    [.encode (BitVec.ofNat 16 r) (BitVec.ofNat 16 g) (BitVec.ofNat 16 b) (BitVec.ofNat 16 br) (BitVec.ofNat 1 m)]
  | .tick now => [.renderTick, .blinkTick (BitVec.ofNat 32 now)]

/-- A statement's commands, an out-of-range operand being an assembler error (R83). -/
def assembleLine (l : AsmLine) : Except AsmError (List Instr) :=
  if l.wellFormed then .ok (expandLine l) else .error .operandOutOfRange

/-- A token of the text: a word of letters, digits and underscores, or a comma. -/
inductive AsmToken where
  | word (cs : List Char)
  | comma
deriving DecidableEq, Repr

/-- A character of a word. -/
def isWordChar (c : Char) : Bool := c.isAlphanum || c == '_'

/-- A character that only separates. -/
def isBlank (c : Char) : Bool := c == ' ' || c == '\t' || c == '\r'

/-- The word read so far, last character first, as a token before the others. -/
def closeWord (acc : List Char) (ts : List AsmToken) : List AsmToken :=
  if acc.isEmpty then ts else .word acc.reverse :: ts

/-- The tokens of one line, up to its comment (R83: a semicolon starts one). -/
def tokenize : List Char → List Char → Except AsmError (List AsmToken)
  | acc, [] => .ok (closeWord acc [])
  | acc, c :: cs =>
    if c == ';' then .ok (closeWord acc [])
    else if isWordChar c then tokenize (c :: acc) cs
    else if isBlank c then (tokenize [] cs).map (closeWord acc)
    else if c == ',' then (tokenize [] cs).map fun ts => closeWord acc (.comma :: ts)
    else .error .badCharacter

/-- The value of a digit in a base, either letter case. -/
def digitValue (base : Nat) (c : Char) : Option Nat :=
  let v := if c.isDigit then c.toNat - '0'.toNat
    else if 'a' ≤ c ∧ c ≤ 'f' then c.toNat - 'a'.toNat + 10
    else if 'A' ≤ c ∧ c ≤ 'F' then c.toNat - 'A'.toNat + 10
    else base
  if v < base then some v else none

/-- A number's digits in a base, most significant first, after those already read. -/
def readDigits (base : Nat) : Nat → List Char → Option Nat
  | n, [] => some n
  | n, c :: cs => (digitValue base c).bind fun v => readDigits base (n * base + v) cs

/-- A number: decimal, or hexadecimal with 0x (R83). -/
def readNumber : List Char → Option Nat
  | [] => none
  | ['0', 'x'] => none
  | '0' :: 'x' :: cs => readDigits 16 0 cs
  | cs => readDigits 10 0 cs

/-- The button of an EDGE statement (R83). -/
def readButton : List Char → Option Button
  | ['A'] => some .A
  | ['B'] => some .B
  | _ => none

/-- A line's statement, none for a line of blanks or comment alone (R83, R84). -/
def parseTokens : List AsmToken → Option (Option AsmLine)
  | [] => some none
  | [.word ['E', 'D', 'G', 'E'], .word b, .comma, .word n] =>
    (readButton b).bind fun btn => (readNumber n).map fun ts => some (.edge btn ts)
  | [.word ['B', 'L', 'I', 'N', 'K', '_', 'T', 'I', 'C', 'K'], .word n] => (readNumber n).map fun t => some (.blinkTick t)
  | [.word ['R', 'E', 'N', 'D', 'E', 'R', '_', 'T', 'I', 'C', 'K']] => some (some .renderTick)
  | [.word ['L', 'O', 'O', 'K', 'U', 'P'], .word n] => (readNumber n).map fun d => some (.lookup d)
  | [.word ['E', 'N', 'C', 'O', 'D', 'E'], .word r, .comma, .word g, .comma, .word b, .comma, .word br, .comma, .word m] =>
    (readNumber r).bind fun r => (readNumber g).bind fun g => (readNumber b).bind fun b =>
      (readNumber br).bind fun br => (readNumber m).map fun m => some (.encode r g b br m)
  | [.word ['T', 'I', 'C', 'K'], .word n] => (readNumber n).map fun t => some (.tick t)
  | _ => none

/-- One line of text, without its line end, as a statement. -/
def parseLine (cs : List Char) : Except AsmError (Option AsmLine) :=
  match tokenize [] cs with
  | .error e => .error e
  | .ok ts =>
    match parseTokens ts with
    | none => .error .badStatement
    | some l => .ok l

/-- The commands of one line of text. -/
def assembleTextLine (cs : List Char) : Except AsmError (List Instr) :=
  match parseLine cs with
  | .error e => .error e
  | .ok none => .ok []
  | .ok (some l) => assembleLine l

/-- The lines of a text. -/
def splitLines : List Char → List (List Char)
  | [] => [[]]
  | c :: cs =>
    if c == '\n' then [] :: splitLines cs
    else
      match splitLines cs with
      | [] => [[c]]
      | l :: ls => (c :: l) :: ls

/-- The commands of a list of lines, in order; the first error ends it. -/
def assembleLines : List (List Char) → Except AsmError (List Instr)
  | [] => .ok []
  | l :: ls =>
    match assembleTextLine l with
    | .error e => .error e
    | .ok is => (assembleLines ls).map (is ++ ·)

/-- The command words of a text (R83). -/
def assembleText (text : String) : Except AsmError (List Cmd) :=
  (assembleLines (splitLines text.toList)).map (·.map encode)

end Sys2Proof.Machine
end

