-- ==== Sys2Proof/Safety.lean ====
section
/-! DEFINITION. What holds of a good state and of a host that keeps its duties, in the terms the statements use. -/

namespace Sys2Proof.Machine

/-- indicator_mode is a named value of the variant (10_state.md R24, R35). -/
def namedMode : Variant → ModeCode → Bool
  | .single, m => m == modeIdle || m == modeActive
  | .multi, m => m == modeRedOnly || m == modeGreenOnly || m == modeBlueOnly

/-- The channel bits the mode selects: none in IDLE, LED in ACTIVE, and the one channel of a MULTI mode. -/
def modeBits : Variant → ModeCode → BitVec 3
  | .single, m => if m == modeActive then 1 else 0
  | .multi, m => if m == modeRedOnly then 1 else if m == modeGreenOnly then 2 else if m == modeBlueOnly then 4 else 0

/-- How many channels an ind_out value drives on. -/
def channelsOn (out : BitVec 3) : Nat := (out.getLsbD 0).toNat + (out.getLsbD 1).toNat + (out.getLsbD 2).toNat

/-- The states of 10_state.md R35, strengthened to what every step keeps: only a channel the mode selects is on (but with
BLINK_PREEMPTIBLE in MULTI, 70_reset_and_hazards.md R240), only a preemptible blink is ever under way, and SINGLE's absent
timer 1 stays as reset left it (10_state.md R30). -/
structure Good (s : State) : Prop where
  digit : s.currentDigit.toNat ≤ 9
  mode : namedMode s.cfg.variant s.indicatorMode = true
  displayed : s.lastDisplayed.valid = true → s.lastDisplayed.digit.toNat ≤ 9
  single : s.cfg.variant = .single → s.indOut &&& 6 = 0
  selected : s.cfg.variant = .single ∨ s.cfg.blinkPreemptible = false →
    s.indOut &&& ~~~(modeBits s.cfg.variant s.indicatorMode) = 0
  atomic : s.cfg.blinkPreemptible = false → s.blinkPending = none
  sampled : ∀ p, s.blinkPending = some p → s.cfg.variant = .single → p.mode = modeActive → s.indicatorMode = modeActive
  oneTimer : s.cfg.variant = .single → s.timer1 = Timer.reset

/-- The word of a lit pixel: Enc of the fixed colour and the render brightness with mask 1 (44_render_driver.md R162). -/
def onWord (c : Config) : Pixel := enc c.fixedColor.r c.fixedColor.g c.fixedColor.b c.renderBrightness 1

/-- The word element i of a pattern gives a frame (44_render_driver.md R162). -/
def litWord (c : Config) (pat : Pattern) (i : Nat) : Pixel := if pat.getLsbD i then onWord c else 0

/-- Frames are whole, and every word is the lit word or 0 (20_memory.md R54, 44_render_driver.md R162). -/
def GoodStream (s : State) : Prop :=
  s.pixStream.length % Config.numPixels = 0 ∧ ∀ w ∈ s.pixStream, w = onWord s.cfg ∨ w = 0

/-- Every response carries a status that 30_encoding.md R74 names. -/
def GoodResponses (s : State) : Prop := ∀ r ∈ s.responses, (respStatus r).toNat ≤ 3

/-- exec of each command of a list in turn, stopping where one does not answer a next state. -/
def execAll : List Instr → State → Host.Outcome State Fault Refusal
  | [], s => .next s
  | i :: is, s =>
    match exec i s with
    | .next t => execAll is t
    | .fault r => .fault r
    | .refused r => .refused r

/-- Is the command an EDGE on button b that the debounce gate, as it stands in s, accepts (42_input_capture.md R122)? -/
def acceptedOn (b : Button) (i : Instr) (s : State) : Bool :=
  match i with
  | .edge btn ts => btn == b && !gateRejects ts s
  | .blinkTick _ => false
  | .renderTick => false
  | .lookup _ => false
  | .encode _ _ _ _ _ => false

/-- How many presses of button b a list of commands has accepted, run from s. -/
def acceptedCount (b : Button) : List Instr → State → Nat
  | [], _ => 0
  | i :: is, s =>
    (if acceptedOn b i s then 1 else 0) +
      match exec i s with
      | .next t => acceptedCount b is t
      | .fault _ => 0
      | .refused _ => 0

/-- The timestamps of the EDGE commands of a list, in order. -/
def edgeTimes : List Instr → List Millis
  | [] => []
  | .edge _ ts :: is => ts :: edgeTimes is
  | .blinkTick _ :: is => edgeTimes is
  | .renderTick :: is => edgeTimes is
  | .lookup _ :: is => edgeTimes is
  | .encode _ _ _ _ _ :: is => edgeTimes is

/-- Host duty H2 for EDGE, up to the wrap: the timestamps do not decrease from t on (60_exceptions.md R216). -/
def NondecreasingFrom (t : Millis) (ts : List Millis) : Prop :=
  List.Pairwise (fun a b : Millis => a.toNat ≤ b.toNat) (t :: ts)

end Sys2Proof.Machine
end

