-- ==== Sys2Proof/Certificates/Slice0/Obligations.lean ====
section
/-! DEFINITION. The statements for the provers, in the order of OBLIGATIONS.json. -/

open Sys2Proof Sys2Proof.Machine

/-! ## Encoding -/

/-- 30_encoding.md R73 and R76 to R80: every command, at every operand value, decodes from the word it encodes to. -/
def Obligations.EveryCommandDecodesFromItsEncoding : Prop :=
  ∀ i : Instr, decode (encode i) = .ok i

/-- 30_encoding.md R71, R73: a word that decodes is the encoding of what it decodes to, so each command has one word. -/
def Obligations.EveryDecodedWordIsItsCommandsEncoding : Prop :=
  ∀ (w : Cmd) (i : Instr), decode w = .ok i → encode i = w

/-- 30_encoding.md R73 and spec/opcode_table.json: the decoder takes exactly the words of the table's five rows, and no
word is a word of two rows. -/
def Obligations.DecoderAcceptsExactlyTheTableRows : Prop :=
  (∀ w : Cmd, (∃ i, decode w = .ok i) ↔ ∃ r ∈ opcodeTable, r.holds w = true) ∧
  (∀ (w : Cmd) (r r' : TableRow), r ∈ opcodeTable → r' ∈ opcodeTable → r.holds w = true → r'.holds w = true → r = r')

/-- 30_encoding.md R76 to R80: what each format's words are and where each operand stands in them; all 16 codes of LOOKUP are
legal encodings, and 10..15 answer INVALID_DIGIT at execution. -/
def Obligations.DecoderReadsEachFormatsFields : Prop :=
  (∀ (w : Cmd) (b : Button) (ts : Millis), decode w = .ok (.edge b ts) ↔
    w &&& 0xFEFFFFFFFF00000000 = 0x100000000000000000 ∧
      b = (if w.getLsbD 64 then Button.B else Button.A) ∧ ts = w.extractLsb' 0 32) ∧
  (∀ (w : Cmd) (now : Millis), decode w = .ok (.blinkTick now) ↔
    w &&& 0xFFFFFFFFFF00000000 = 0x200000000000000000 ∧ now = w.extractLsb' 0 32) ∧
  (∀ w : Cmd, decode w = .ok .renderTick ↔ w &&& 0xFFFFFFFFFFFFFFFFFF = 0x300000000000000000) ∧
  (∀ (w : Cmd) (d : Digit), decode w = .ok (.lookup d) ↔
    w &&& 0xF0FFFFFFFFFFFFFFFF = 0x400000000000000000 ∧ d = w.extractLsb' 64 4) ∧
  (∀ (w : Cmd) (r g b br : UQ15) (m : BitVec 1), decode w = .ok (.encode r g b br m) ↔
    w &&& 0xFE0000000000000000 = 0x500000000000000000 ∧
      r = w.extractLsb' 48 16 ∧ g = w.extractLsb' 32 16 ∧ b = w.extractLsb' 16 16 ∧ br = w.extractLsb' 0 16 ∧
      m = w.extractLsb' 64 1) ∧
  (∀ (d : Digit) (s : State), 10 ≤ d.toNat →
    exec (.lookup d) s = .next { s with responses := s.responses ++ [respWord .invalidDigit 0] })

/-- The ten example rows of 30_encoding.md section 5 (R85, which the spec derives from R70 and R75 to R80): each text
assembles to its word, each word decodes to its command, and the two illegal words do not decode. -/
def Obligations.ExampleWordsDecode : Prop :=
  assembleText "EDGE A, 1000" = .ok [0x1000000000000003E8] ∧ decode 0x1000000000000003E8 = .ok (.edge .A 1000) ∧
  assembleText "EDGE B, 150" = .ok [0x110000000000000096] ∧ decode 0x110000000000000096 = .ok (.edge .B 150) ∧
  assembleText "BLINK_TICK 200" = .ok [0x2000000000000000C8] ∧ decode 0x2000000000000000C8 = .ok (.blinkTick 200) ∧
  assembleText "RENDER_TICK" = .ok [0x300000000000000000] ∧ decode 0x300000000000000000 = .ok .renderTick ∧
  assembleText "LOOKUP 7" = .ok [0x470000000000000000] ∧ decode 0x470000000000000000 = .ok (.lookup 7) ∧
  assembleText "LOOKUP 12" = .ok [0x4C0000000000000000] ∧ decode 0x4C0000000000000000 = .ok (.lookup 12) ∧
  assembleText "ENCODE 0x8000, 0x8000, 0x8000, 0x8000, 1" = .ok [0x518000800080008000] ∧
  decode 0x518000800080008000 = .ok (.encode 0x8000 0x8000 0x8000 0x8000 1) ∧
  assembleText "ENCODE 0x8000, 0x4000, 0x0000, 0x8000, 1" = .ok [0x518000400000008000] ∧
  decode 0x518000400000008000 = .ok (.encode 0x8000 0x4000 0 0x8000 1) ∧
  decode 0x600000000000000000 = .error .reservedOpcode ∧ decode 0x1000000001000003E8 = .error .reservedField

/-- 30_encoding.md R83 (the field widths are R76 to R80's): a statement with an operand out of range for its field is an
assembler error, with the bounds as numbers, and any other assembles to commands that carry its operands' values, TICK
(R84) to two of them. -/
def Obligations.AssemblerTakesExactlyOperandsInRange : Prop :=
  (∀ l : AsmLine, l.wellFormed = false ↔ assembleLine l = .error .operandOutOfRange) ∧
  (∀ (b : Button) (n : Nat), 2 ^ 32 ≤ n → assembleLine (.edge b n) = .error .operandOutOfRange) ∧
  (∀ n : Nat, 2 ^ 32 ≤ n → assembleLine (.blinkTick n) = .error .operandOutOfRange) ∧
  (∀ n : Nat, 2 ^ 4 ≤ n → assembleLine (.lookup n) = .error .operandOutOfRange) ∧
  (∀ r g b br m : Nat, 2 ^ 16 ≤ r ∨ 2 ^ 16 ≤ g ∨ 2 ^ 16 ≤ b ∨ 2 ^ 16 ≤ br ∨ 2 ≤ m →
    assembleLine (.encode r g b br m) = .error .operandOutOfRange) ∧
  (∀ n : Nat, 2 ^ 32 ≤ n → assembleLine (.tick n) = .error .operandOutOfRange) ∧
  (∀ (b : Button) (n : Nat), n < 2 ^ 32 → ∃ ts, assembleLine (.edge b n) = .ok [.edge b ts] ∧ ts.toNat = n) ∧
  (∀ n : Nat, n < 2 ^ 32 → ∃ now, assembleLine (.blinkTick n) = .ok [.blinkTick now] ∧ now.toNat = n) ∧
  assembleLine .renderTick = .ok [.renderTick] ∧
  (∀ n : Nat, n < 2 ^ 4 → ∃ d, assembleLine (.lookup n) = .ok [.lookup d] ∧ d.toNat = n) ∧
  (∀ r g b br m : Nat, r < 2 ^ 16 → g < 2 ^ 16 → b < 2 ^ 16 → br < 2 ^ 16 → m < 2 →
    ∃ r' g' b' br' m', assembleLine (.encode r g b br m) = .ok [.encode r' g' b' br' m'] ∧
      r'.toNat = r ∧ g'.toNat = g ∧ b'.toNat = b ∧ br'.toNat = br ∧ m'.toNat = m) ∧
  (∀ n : Nat, n < 2 ^ 32 → ∃ now, assembleLine (.tick n) = .ok [.renderTick, .blinkTick now] ∧ now.toNat = n)

/-- 30_encoding.md R84: TICK now is the two commands RENDER_TICK and then BLINK_TICK now, and an EDGE may come between
them: the block, at rest and out of reset, takes the three words one step each, in the order presented. -/
def Obligations.TickIsRenderThenBlinkWithRoomForAnEdge : Prop :=
  ∀ n : Nat, n < 2 ^ 32 →
    assembleLine (.tick n) = .ok [.renderTick, .blinkTick (BitVec.ofNat 32 n)] ∧
    ∀ (s : State) (b : Button) (ts : Millis), s.rst = false → s.blinkPending = none →
      s.inputs = [.cmd (encode .renderTick), .cmd (encode (.edge b ts)), .cmd (encode (.blinkTick (BitVec.ofNat 32 n)))] →
      ∃ s1 s2 s3, exec .renderTick { s with inputs := s.inputs.drop 1 } = .next s1 ∧
        exec (.edge b ts) { s1 with inputs := s.inputs.drop 2 } = .next s2 ∧
        exec (.blinkTick (BitVec.ofNat 32 n)) { s2 with inputs := [] } = .next s3 ∧ core.run 3 s = .next s3

/-- 20_memory.md R58: a host serialises a command into nine bytes, the most significant (bits 71:64) first; the nine bytes
give the word back, and every nine bytes are those of one word. -/
def Obligations.SerialisedCommandsRoundTrip : Prop :=
  (∀ w : Cmd, (bytesOfCmd w).length = 9 ∧ (bytesOfCmd w).head? = some (w.extractLsb' 64 8) ∧
    cmdOfBytes (bytesOfCmd w) = some w) ∧
  (∀ (bs : List (BitVec 8)) (w : Cmd), cmdOfBytes bs = some w → bytesOfCmd w = bs)

/-! ## The step -/

/-- A step takes the word presented next and runs the command it decodes to (30_encoding.md R72), where the reset input is
released and no blink must end first (43_blink_scheduler.md R148). The second clause is the model's choice (log 4): a word
placed by withFetchWord, which also releases rst and drops a blink under way, is run at once. -/
def Obligations.StepRunsTheDecodedCommand : Prop :=
  (∀ (s : State) (w : Cmd) (rest : List PortEvent) (i : Instr),
    s.inputs = .cmd w :: rest → s.rst = false → (s.blinkPending = none ∨ ∃ b ts, i = .edge b ts) → decode w = .ok i →
    step s = exec i { s with inputs := rest }) ∧
  (∀ (s : State) (n : Nat) (i : Instr), decodeTableWord 72 n = some i →
    step (s.withFetchWord 72 n) = exec i { s with rst := false, blinkPending := none })

/-- 30_encoding.md R82, 60_exceptions.md R203: which words are ILLEGAL (the all-zero word among them, and some word of every
opcode), that such a word is answered ILLEGAL_CMD with RDATA 0 and changes nothing else, and that no step at a word that
decodes gives a response with that status. -/
def Obligations.IllegalWordsAreAnsweredAndChangeNothing : Prop :=
  (∀ w : Cmd, (∃ e, decode w = .error e) ↔
    cmdOp w = 0 ∨ 6 ≤ (cmdOp w).toNat ∨
    (cmdOp w = 1 ∧ (w.extractLsb' 65 3 ≠ 0 ∨ w.extractLsb' 32 32 ≠ 0)) ∨
    (cmdOp w = 2 ∧ (w.extractLsb' 64 4 ≠ 0 ∨ w.extractLsb' 32 32 ≠ 0)) ∨
    (cmdOp w = 3 ∧ (w.extractLsb' 64 4 ≠ 0 ∨ w.extractLsb' 0 64 ≠ 0)) ∨
    (cmdOp w = 4 ∧ w.extractLsb' 0 64 ≠ 0) ∨
    (cmdOp w = 5 ∧ w.extractLsb' 65 3 ≠ 0)) ∧
  (∃ e, decode 0 = .error e) ∧
  (∀ op : BitVec 4, ∃ w e, cmdOp w = op ∧ decode w = .error e) ∧
  (∀ (s : State) (w : Cmd) (rest : List PortEvent) (e : IllegalWord),
    s.inputs = .cmd w :: rest → s.rst = false → s.blinkPending = none → decode w = .error e →
    step s = .next { s with inputs := rest, responses := s.responses ++ [0x300000000] }) ∧
  (∀ (s t : State) (w : Cmd) (rest : List PortEvent) (i : Instr),
    s.inputs = .cmd w :: rest → decode w = .ok i → step s = .next t →
    ∃ rs, t.responses = s.responses ++ rs ∧ ∀ r ∈ rs, respStatus r ≠ 3)

/-- 60_exceptions.md R200: no step faults or is refused; with rst released every word taken gives exactly one response, a
preempted blink at its drive (43_blink_scheduler.md R148), where only an EDGE is taken before that drive. The last clause is
the model's choice (log 8): with nothing presented the very next step is a pending blink's drive and answer. -/
def Obligations.EveryStepCompletesWithOneResponsePerCommand : Prop :=
  (∀ s : State, ∃ t, step s = .next t) ∧
  (∀ (s : State) (w : Cmd) (rest : List PortEvent), s.inputs = .cmd w :: rest → s.rst = false →
    (s.blinkPending = none ∨ ∃ b ts, decode w = .ok (.edge b ts)) →
    s.cfg.blinkPreemptible = false ∨ (∀ now, decode w ≠ .ok (.blinkTick now)) →
    ∃ t r, step s = .next t ∧ t.inputs = rest ∧ t.responses = s.responses ++ [r]) ∧
  (∀ (s : State) (now : Millis), s.cfg.blinkPreemptible = true →
    ∃ t p, exec (.blinkTick now) s = .next t ∧ t.blinkPending = some p ∧ t.responses = s.responses) ∧
  (∀ (s : State) (p : BlinkPending), s.inputs = [] → s.rst = false → s.blinkPending = some p →
    ∃ t r, step s = .next t ∧ t.blinkPending = none ∧ t.responses = s.responses ++ [r])

/-- 70_reset_and_hazards.md R230: asserting rst gives every field its R231 value and keeps the words pushed; while it is
asserted a command is ignored with no response; releasing it changes nothing else, so the first command after it sees
those values; no command asserts or releases it; and power-on is such an assertion. That the responses already given are
kept at the assertion is the model's choice (log 5). -/
def Obligations.ResetInputResetsAndTakesNoCommand : Prop :=
  (∀ (s : State) (rest : List PortEvent), s.inputs = .rst true :: rest →
    ∃ t, step s = .next t ∧ t.rst = true ∧ t.inputs = rest ∧ t.cfg = s.cfg ∧
      t.currentDigit = 0 ∧ t.indicatorMode = 0 ∧ t.lastEventTime = 0 ∧ t.pressCountA = 0 ∧ t.pressCountB = 0 ∧
      t.lastDisplayed.valid = false ∧ t.timer0 = ⟨0, false⟩ ∧ t.timer1 = ⟨0, false⟩ ∧ t.indOut = 0 ∧
      t.pixStream = s.pixStream ∧ t.responses = s.responses) ∧
  (∀ (s : State) (w : Cmd) (rest : List PortEvent), s.inputs = .cmd w :: rest → s.rst = true →
    step s = .next { s with inputs := rest }) ∧
  (∀ (s : State) (rest : List PortEvent), s.inputs = .rst false :: rest →
    step s = .next { s with inputs := rest, rst := false }) ∧
  (∀ (i : Instr) (s t : State), exec i s = .next t → t.rst = s.rst) ∧
  core.run 2 { State.reset with inputs := [.rst true, .rst false] } = .next State.reset

/-- 70_reset_and_hazards.md R231, 20_memory.md R56: the state after reset, for the values the spec gives. -/
def Obligations.ResetStateHoldsTheStatedValues : Prop :=
  State.reset.currentDigit = 0 ∧ State.reset.indicatorMode = 0 ∧ State.reset.lastEventTime = 0 ∧
  State.reset.pressCountA = 0 ∧ State.reset.pressCountB = 0 ∧ State.reset.lastDisplayed.valid = false ∧
  State.reset.timer0 = ⟨0, false⟩ ∧ State.reset.timer1 = ⟨0, false⟩ ∧ State.reset.indOut = 0 ∧
  State.reset.pixStream = []

/-- The model's choice (log 4; 60_exceptions.md R217 and R218 say only that state persists and that the block never stops):
with nothing presented and no blink under way a step leaves the state as it is. -/
def Obligations.IdleBlockHoldsItsState : Prop :=
  ∀ s : State, s.inputs = [] → s.blinkPending = none → step s = .next s

/-- 10_state.md R29, R27: each observation port shows its field; what no port shows (last_displayed, the timers, the
pixel stream) does not change one; and in SINGLE the pins [2:1] read 0. -/
def Obligations.PortsShowExactlyTheSharedState : Prop :=
  (∀ s : State, obsDigit s = s.currentDigit ∧ obsMode s = s.indicatorMode ∧ obsLastEvent s = s.lastEventTime ∧
    obsCountA s = s.pressCountA ∧ obsCountB s = s.pressCountB) ∧
  (∀ (s : State) (ld : LastDisplayed) (t0 t1 : Timer) (px : List Pixel),
    let s' := { s with lastDisplayed := ld, timer0 := t0, timer1 := t1, pixStream := px }
    obsDigit s' = obsDigit s ∧ obsMode s' = obsMode s ∧ obsLastEvent s' = obsLastEvent s ∧
      obsCountA s' = obsCountA s ∧ obsCountB s' = obsCountB s) ∧
  (∀ s : State, s.cfg.variant = .single →
    indPins s = (if s.indOut.getLsbD 0 then 1 else 0)) ∧
  (∀ s : State, s.cfg.variant = .multi → indPins s = s.indOut)

/-! ## LOOKUP and ENCODE -/

/-- 20_memory.md R51: FontRead gives the entry of a digit 0..9 and InvalidDigit for 10..15. -/
def Obligations.FontReadIsDefinedOnDecimalDigits : Prop :=
  ∀ (c : Config) (d : Digit),
    (∀ h : d.toNat < 10, fontRead c d = some c.font[d.toNat]) ∧ (10 ≤ d.toNat → fontRead c d = none)

/-- 40_font_lut.md R101, R102: LOOKUP of 0..9 answers OK with element i of the pattern at bit i and 0 above bit 24; LOOKUP of
10..15 answers INVALID_DIGIT with 0. Nothing else changes. -/
def Obligations.LookupAnswersThePattern : Prop :=
  (∀ (d : Digit) (s : State) (h : d.toNat < 10), ∃ v : Word32,
    exec (.lookup d) s = .next { s with responses := s.responses ++ [respWord .ok v] } ∧
    ∀ i : Nat, v.getLsbD i = (decide (i < 25) && (s.cfg.font[d.toNat]).getLsbD i)) ∧
  (∀ (d : Digit) (s : State), 10 ≤ d.toNat →
    exec (.lookup d) s = .next { s with responses := s.responses ++ [respWord .invalidDigit 0] })

/-- 41_pixel_encoder.md R111, R112: the word of ENCODE, byte by byte: green, red, blue, zero, each component the floor of
255 * br * c * m / 2^30 clamped to 255, from an exact product under 2^40. Nothing else changes. -/
def Obligations.EncodeAnswersThePackedWord : Prop :=
  ∀ (r g b br : UQ15) (m : BitVec 1) (s : State), ∃ w : Pixel,
    exec (.encode r g b br m) s = .next { s with responses := s.responses ++ [respWord .ok w] } ∧
    (w.extractLsb' 24 8).toNat = min 255 (255 * br.toNat * g.toNat * m.toNat / 2 ^ 30) ∧
    (w.extractLsb' 16 8).toNat = min 255 (255 * br.toNat * r.toNat * m.toNat / 2 ^ 30) ∧
    (w.extractLsb' 8 8).toNat = min 255 (255 * br.toNat * b.toNat * m.toNat / 2 ^ 30) ∧
    w.extractLsb' 0 8 = 0 ∧
    (∀ c : UQ15, 255 * br.toNat * c.toNat * m.toNat ≤ 255 * 65535 * 65535) ∧ 255 * 65535 * 65535 < 2 ^ 40

/-- 41_pixel_encoder.md R114: with mask 0 the word is 0 whatever the colour; with mask 1 each component is the scaled
channel. -/
def Obligations.MaskZeroGivesTheZeroWord : Prop :=
  (∀ r g b br : UQ15, enc r g b br 0 = 0) ∧
  (∀ br c : UQ15, (comp br c 1).toNat = min 255 (255 * br.toNat * c.toNat / 2 ^ 30))

/-- The corner values 41_pixel_encoder.md works out in section 1 (its R113, R115 and R116): full white, the clamp, the two
codes for 0.3, and every component with brightness or channel 0. -/
def Obligations.EncoderCornerValues : Prop :=
  enc 0x8000 0x8000 0x8000 0x8000 1 = 0xFFFFFF00 ∧ comp 0xFFFF 0xFFFF 1 = 255 ∧
  enc 0x8000 0x8000 0x8000 0x2666 1 = 0x4C4C4C00 ∧ enc 0x8000 0x8000 0x8000 0x2667 1 = 0x4C4C4C00 ∧
  (∀ c m, comp 0 c m = 0) ∧ (∀ br m, comp br 0 m = 0)

/-! ## EDGE -/

/-- 42_input_capture.md R130 (the gate is R122's, the status 60_exceptions.md R201's): an edge less than a window after the
last accepted one, modulo 2^32, is answered SPURIOUS_EDGE with the digit, and no record of it is kept: nothing else
changes. That a difference of exactly the window is accepted stands in AcceptedEdgeAppliesThePress. -/
def Obligations.EdgeInsideTheWindowIsDropped : Prop :=
  ∀ (s : State) (b : Button) (ts : Millis),
    (ts.toNat + 2 ^ 32 - s.lastEventTime.toNat) % 2 ^ 32 < s.cfg.debounceWindowMs.toNat →
    exec (.edge b ts) s =
      .next { s with responses := s.responses ++ [respWord .spuriousEdge (BitVec.ofNat 32 s.currentDigit.toNat)] }

/-- 42_input_capture.md section 2 (R122 to R127): all an accepted press writes and all it leaves, for each button and variant,
from a difference of exactly the window on. The spec derives two clauses: that exactly the window is accepted (from the
source's "<"), and that both buttons select ACTIVE in SINGLE (R125, from R16). -/
def Obligations.AcceptedEdgeAppliesThePress : Prop :=
  (∀ (s : State) (ts : Millis), s.cfg.debounceWindowMs.toNat ≤ (ts - s.lastEventTime).toNat →
    exec (.edge .A ts) s = .next { s with
      lastEventTime := ts
      currentDigit := BitVec.ofNat 4 ((s.currentDigit.toNat + 1) % 10)
      indicatorMode := 1
      pressCountA := s.pressCountA + 1
      indOut := (match s.cfg.variant with | .single => s.indOut ||| 1 | .multi => 2)
      responses := s.responses ++ [respWord .ok (BitVec.ofNat 32 ((s.currentDigit.toNat + 1) % 10))] }) ∧
  (∀ (s : State) (ts : Millis), s.cfg.debounceWindowMs.toNat ≤ (ts - s.lastEventTime).toNat →
    exec (.edge .B ts) s = .next { s with
      lastEventTime := ts
      currentDigit := BitVec.ofNat 4 ((s.currentDigit.toNat + 9) % 10)
      indicatorMode := (match s.cfg.variant with | .single => 1 | .multi => 2)
      pressCountB := s.pressCountB + 1
      indOut := (match s.cfg.variant with | .single => s.indOut ||| 1 | .multi => 4)
      responses := s.responses ++ [respWord .ok (BitVec.ofNat 32 ((s.currentDigit.toNat + 9) % 10))] })

/-- 42_input_capture.md R124: the digit after an accepted press, for any 4-bit digit before it, as the spec writes it twice
for B; both results are in 0..9. -/
def Obligations.PressedDigitIsDecimal : Prop :=
  ∀ (s : State) (ts : Millis), s.cfg.debounceWindowMs.toNat ≤ (ts - s.lastEventTime).toNat →
    (∃ t, exec (.edge .A ts) s = .next t ∧ t.currentDigit.toNat = (s.currentDigit.toNat + 1) % 10 ∧
      t.currentDigit.toNat ≤ 9) ∧
    (∃ t, exec (.edge .B ts) s = .next t ∧ t.currentDigit.toNat = (s.currentDigit.toNat + 9) % 10 ∧
      (t.currentDigit.toNat : Int) = ((s.currentDigit.toNat : Int) - 1 + 10) % 10 ∧ t.currentDigit.toNat ≤ 9)

/-- 42_input_capture.md R127: the levels a press leaves (LED on; the selected channel on and the other two off), the blink
state untouched, and the level the next toggle of the new mode's timer then drives, whatever the press left. -/
def Obligations.PostPressDriveLeavesTheBlinkState : Prop :=
  ∀ (s : State) (b : Button) (ts now : Millis), s.cfg.debounceWindowMs.toNat ≤ (ts - s.lastEventTime).toNat →
    ∃ t, exec (.edge b ts) s = .next t ∧ t.timer0 = s.timer0 ∧ t.timer1 = s.timer1 ∧
      (s.cfg.variant = .single → t.indOut.getLsbD 0 = true ∧ t.indOut &&& 6 = s.indOut &&& 6 ∧
        (s.cfg.blinkPreemptible = false → s.cfg.periodSingleMs.toNat ≤ (now - s.timer0.lastToggle).toNat →
          ∃ u, exec (.blinkTick now) t = .next u ∧ u.indOut.getLsbD 0 = !s.timer0.phase)) ∧
      (s.cfg.variant = .multi → t.indOut = (match b with | .A => 2 | .B => 4) ∧
        (s.cfg.blinkPreemptible = false → s.cfg.periodGbMs.toNat ≤ (now - s.timer1.lastToggle).toNat →
          ∃ u, exec (.blinkTick now) t = .next u ∧
            u.indOut.getLsbD (match b with | .A => 1 | .B => 2) = !s.timer1.phase))

/-- 42_input_capture.md R128: one gate serves both buttons: after an accepted press on either, an edge on either is rejected
within the window. -/
def Obligations.DebounceGateIsGlobal : Prop :=
  ∀ (s : State) (b b' : Button) (ts ts' : Millis),
    s.cfg.debounceWindowMs.toNat ≤ (ts - s.lastEventTime).toNat →
    (ts' - ts).toNat < s.cfg.debounceWindowMs.toNat →
    ∃ t, exec (.edge b ts) s = .next t ∧ exec (.edge b' ts') t =
      .next { t with responses := t.responses ++ [respWord .spuriousEdge (BitVec.ofNat 32 t.currentDigit.toNat)] }

/-- 42_input_capture.md section 3 (R129, which the spec derives from R122 and R123): a rejected edge does not move the
window: after an accepted edge at t0 and a rejected one, an edge is taken or dropped by its distance from t0. -/
def Obligations.RejectedEdgeDoesNotMoveTheWindow : Prop :=
  ∀ (s : State) (b0 b1 b2 : Button) (t0 t1 t2 : Millis),
    s.cfg.debounceWindowMs.toNat ≤ (t0 - s.lastEventTime).toNat →
    (t1 - t0).toNat < s.cfg.debounceWindowMs.toNat →
    ∃ u v, execAll [.edge b0 t0, .edge b1 t1] s = .next u ∧ exec (.edge b2 t2) u = .next v ∧
      v.lastEventTime = (if (t2 - t0).toNat < s.cfg.debounceWindowMs.toNat then t0 else t2)

/-- 42_input_capture.md R131: the difference is taken modulo 2^32, with the spec's two timestamps across the wrap at the
window of 50 ms: 0x22 after 0xFFFFFFF0 is accepted, 0x21 is rejected. -/
def Obligations.DebounceDifferenceWraps : Prop :=
  (∀ (s : State) (ts : Millis), gateRejects ts s = true ↔
    (ts.toNat + 2 ^ 32 - s.lastEventTime.toNat) % 2 ^ 32 < s.cfg.debounceWindowMs.toNat) ∧
  (∀ (s : State) (b : Button), s.cfg.debounceWindowMs = 50 → s.lastEventTime = 0xFFFFFFF0 →
    (∃ t, exec (.edge b 0x22) s = .next t ∧ t.lastEventTime = 0x22) ∧
    (∃ t v, exec (.edge b 0x21) s = .next t ∧ t.lastEventTime = 0xFFFFFFF0 ∧
      t.responses = s.responses ++ [respWord .spuriousEdge v]))

/-- 42_input_capture.md R132: an edge k ms before the last accepted one, 0 < k <= 2^32 - window, has difference 2^32 - k and
is accepted. -/
def Obligations.BackwardEdgeIsAccepted : Prop :=
  ∀ (s : State) (b : Button) (k : Nat), 0 < k → k ≤ 2 ^ 32 - s.cfg.debounceWindowMs.toNat → k < 2 ^ 32 →
    ((s.lastEventTime - BitVec.ofNat 32 k) - s.lastEventTime).toNat = 2 ^ 32 - k ∧
    ∃ t v, exec (.edge b (s.lastEventTime - BitVec.ofNat 32 k)) s = .next t ∧
      t.lastEventTime = s.lastEventTime - BitVec.ofNat 32 k ∧ t.responses = s.responses ++ [respWord .ok v]

/-- 42_input_capture.md section 3 (R133, which the spec derives from R122 and its reset value of last_event_time): right
after reset an edge at 0..49 is rejected, whatever the OPEN parameters are. -/
def Obligations.FirstWindowAfterResetIsClosed : Prop :=
  ∀ (b : Button) (ts : Millis), ts.toNat < 50 →
    exec (.edge b ts) State.reset = .next { State.reset with responses := [respWord .spuriousEdge 0] }

/-- 60_exceptions.md section 2 (R206): of two edges at one time the host's first is taken and the other dropped, in both
orders, so the digit and the count that move depend on the order. -/
def Obligations.FirstOfTwoSimultaneousEdgesWins : Prop :=
  ∀ (s : State) (ts : Millis), s.cfg.debounceWindowMs.toNat ≤ (ts - s.lastEventTime).toNat →
    0 < s.cfg.debounceWindowMs.toNat →
    (∃ t, execAll [.edge .A ts, .edge .B ts] s = .next t ∧ t.currentDigit.toNat = (s.currentDigit.toNat + 1) % 10 ∧
      t.pressCountA = s.pressCountA + 1 ∧ t.pressCountB = s.pressCountB) ∧
    (∃ t, execAll [.edge .B ts, .edge .A ts] s = .next t ∧ t.currentDigit.toNat = (s.currentDigit.toNat + 9) % 10 ∧
      t.pressCountA = s.pressCountA ∧ t.pressCountB = s.pressCountB + 1)

/-! ## BLINK_TICK -/

/-- 43_blink_scheduler.md R143, R144, with both options off: for each variant and mode, which timer fires, what it flips,
stores and drives, and all the command leaves. Every decision uses the mode before the command. -/
def Obligations.AtomicBlinkTogglesDueTimers : Prop :=
  (∀ (s : State) (now : Millis), s.cfg.variant = .multi → s.cfg.blinkPreemptible = false →
    s.cfg.freeRunningTimers = false →
    let due0 := s.indicatorMode = 0 ∧ s.cfg.periodRMs.toNat ≤ (now - s.timer0.lastToggle).toNat
    let due1 := (s.indicatorMode = 1 ∨ s.indicatorMode = 2) ∧ s.cfg.periodGbMs.toNat ≤ (now - s.timer1.lastToggle).toNat
    ∃ out, exec (.blinkTick now) s = .next { s with
        timer0 := if due0 then ⟨now, !s.timer0.phase⟩ else s.timer0
        timer1 := if due1 then ⟨now, !s.timer1.phase⟩ else s.timer1
        indOut := out
        responses := s.responses ++ [respWord .ok ((if due0 then 1 else 0) + (if due1 then 2 else 0))] } ∧
      out.getLsbD 0 = (if due0 then !s.timer0.phase else s.indOut.getLsbD 0) ∧
      out.getLsbD 1 = (if due1 ∧ s.indicatorMode = 1 then !s.timer1.phase else s.indOut.getLsbD 1) ∧
      out.getLsbD 2 = (if due1 ∧ s.indicatorMode = 2 then !s.timer1.phase else s.indOut.getLsbD 2)) ∧
  (∀ (s : State) (now : Millis), s.cfg.variant = .single → s.cfg.blinkPreemptible = false →
    s.cfg.freeRunningTimers = false →
    let due0 := s.indicatorMode = 1 ∧ s.cfg.periodSingleMs.toNat ≤ (now - s.timer0.lastToggle).toNat
    ∃ out, exec (.blinkTick now) s = .next { s with
        timer0 := if due0 then ⟨now, !s.timer0.phase⟩ else s.timer0
        indOut := out
        responses := s.responses ++ [respWord .ok (if due0 then 1 else 0)] } ∧
      out.getLsbD 0 = (if due0 then !s.timer0.phase else s.indOut.getLsbD 0) ∧ out &&& 6 = s.indOut &&& 6)

/-- 43_blink_scheduler.md section 2 (R140's corner case): with every period at least 1 ms, a second BLINK_TICK with the same
now fires nothing and changes only the responses. -/
def Obligations.SameTimeBlinkFiresOnce : Prop :=
  ∀ (s : State) (now : Millis), s.cfg.wellFormed = true → s.cfg.blinkPreemptible = false →
    ∃ t, exec (.blinkTick now) s = .next t ∧
      exec (.blinkTick now) t = .next { t with responses := t.responses ++ [respWord .ok 0] }

/-- 43_blink_scheduler.md R147: with FREE_RUNNING_TIMERS true every timer of the variant toggles on its own period whatever
the mode, and drives only the active mode's channel; with it false a timer the mode does not use is frozen. -/
def Obligations.FreeRunningTimersToggleInTheBackground : Prop :=
  (∀ (s : State) (now : Millis), s.cfg.variant = .multi → s.cfg.blinkPreemptible = false →
    s.cfg.freeRunningTimers = true →
    let due0 := s.cfg.periodRMs.toNat ≤ (now - s.timer0.lastToggle).toNat
    let due1 := s.cfg.periodGbMs.toNat ≤ (now - s.timer1.lastToggle).toNat
    ∃ out, exec (.blinkTick now) s = .next { s with
        timer0 := if due0 then ⟨now, !s.timer0.phase⟩ else s.timer0
        timer1 := if due1 then ⟨now, !s.timer1.phase⟩ else s.timer1
        indOut := out
        responses := s.responses ++ [respWord .ok ((if due0 then 1 else 0) + (if due1 then 2 else 0))] } ∧
      out.getLsbD 0 = (if due0 ∧ s.indicatorMode = 0 then !s.timer0.phase else s.indOut.getLsbD 0) ∧
      out.getLsbD 1 = (if due1 ∧ s.indicatorMode = 1 then !s.timer1.phase else s.indOut.getLsbD 1) ∧
      out.getLsbD 2 = (if due1 ∧ s.indicatorMode = 2 then !s.timer1.phase else s.indOut.getLsbD 2)) ∧
  (∀ (s : State) (now : Millis), s.cfg.variant = .single → s.cfg.blinkPreemptible = false →
    s.cfg.freeRunningTimers = true →
    let due0 := s.cfg.periodSingleMs.toNat ≤ (now - s.timer0.lastToggle).toNat
    ∃ out, exec (.blinkTick now) s = .next { s with
        timer0 := if due0 then ⟨now, !s.timer0.phase⟩ else s.timer0
        indOut := out
        responses := s.responses ++ [respWord .ok (if due0 then 1 else 0)] } ∧
      out.getLsbD 0 = (if due0 ∧ s.indicatorMode = 1 then !s.timer0.phase else s.indOut.getLsbD 0) ∧
      out &&& 6 = s.indOut &&& 6) ∧
  (∀ (s : State) (now : Millis), s.cfg.freeRunningTimers = false →
    ∃ t, exec (.blinkTick now) s = .next t ∧
      ((s.cfg.variant = .multi ∧ s.indicatorMode ≠ 0) ∨ (s.cfg.variant = .single ∧ s.indicatorMode ≠ 1) →
        t.timer0 = s.timer0) ∧
      ((s.cfg.variant = .multi ∧ s.indicatorMode ≠ 1 ∧ s.indicatorMode ≠ 2) ∨ s.cfg.variant = .single →
        t.timer1 = s.timer1))

/-- 43_blink_scheduler.md R152: a now j ms before a timer's last toggle, 0 < j <= 2^32 - P, has a difference of at least P
modulo 2^32, so the timer the mode uses fires. -/
def Obligations.BackwardBlinkFires : Prop :=
  ∀ (s : State) (k : TimerId) (j : Nat), k ∈ variantTimers s.cfg.variant →
    usesTimer s.cfg.variant k s.indicatorMode = true → s.cfg.blinkPreemptible = false →
    0 < j → j ≤ 2 ^ 32 - (period s.cfg k).toNat → j < 2 ^ 32 →
    let now := (getTimer k s).lastToggle - BitVec.ofNat 32 j
    (period s.cfg k).toNat ≤ (now - (getTimer k s).lastToggle).toNat ∧
    ∃ t, exec (.blinkTick now) s = .next t ∧ getTimer k t = ⟨now, !(getTimer k s).phase⟩

/-- 43_blink_scheduler.md section 3 (R148, first step): a preemptible BLINK_TICK tests and toggles as the atomic one does, keeps
the mode and the fired timers for its drive, and drives and answers nothing yet. -/
def Obligations.PreemptibleBlinkSamplesWithoutDriving : Prop :=
  ∀ (s : State) (now : Millis), s.cfg.blinkPreemptible = true →
    ∃ t u p, exec (.blinkTick now) s = .next t ∧
      exec (.blinkTick now) { s with cfg := { s.cfg with blinkPreemptible := false } } = .next u ∧
      t = { s with timer0 := u.timer0, timer1 := u.timer1, blinkPending := some p } ∧
      p.mode = s.indicatorMode ∧ u.responses = s.responses ++ [respWord .ok (p.fired.setWidth 32)]

/-- 43_blink_scheduler.md section 3 (R148, second step): each pending timer drives with its phase the channels of the mode
sampled first or of the mode at the drive, and which of the two is left open. Besides ind_out, the response and the end of
the blink only the model's own counter of draws moves (log 7). That with nothing presented the next step is this drive is
the model's choice (log 8). -/
def Obligations.PreemptedBlinkDrivesEitherChannelSet : Prop :=
  ∀ (s : State) (p : BlinkPending), s.rst = false → s.blinkPending = some p → s.inputs = [] →
    ∃ t m0 m1, step s = .next t ∧ (m0 = p.mode ∨ m0 = s.indicatorMode) ∧ (m1 = p.mode ∨ m1 = s.indicatorMode) ∧
      t = { s with
        blinkPending := none
        draws := s.draws + 1
        indOut := t.indOut
        responses := s.responses ++ [respWord .ok (p.fired.setWidth 32)] } ∧
      (s.cfg.variant = .multi →
        t.indOut.getLsbD 0 = (if p.fired.getLsbD 0 ∧ m0 = 0 then s.timer0.phase else s.indOut.getLsbD 0) ∧
        t.indOut.getLsbD 1 = (if p.fired.getLsbD 1 ∧ m1 = 1 then s.timer1.phase else s.indOut.getLsbD 1) ∧
        t.indOut.getLsbD 2 = (if p.fired.getLsbD 1 ∧ m1 = 2 then s.timer1.phase else s.indOut.getLsbD 2)) ∧
      (s.cfg.variant = .single →
        t.indOut.getLsbD 0 = (if p.fired.getLsbD 0 ∧ m0 = 1 then s.timer0.phase else s.indOut.getLsbD 0) ∧
        t.indOut &&& 6 = s.indOut &&& 6)

/-- 43_blink_scheduler.md section 3 (R148): between the two steps of a blink an EDGE is taken and the blink stays under way. R148
accepts no other command there; that another command word, or an ILLEGAL one, then waits in its place while a step of its
own drives and answers the blink is the model's choice (log 8). -/
def Obligations.OnlyEdgesPreemptABlink : Prop :=
  ∀ (s : State) (p : BlinkPending) (w : Cmd) (rest : List PortEvent),
    s.blinkPending = some p → s.rst = false → s.inputs = .cmd w :: rest →
    (∀ b ts, decode w = .ok (.edge b ts) → ∃ t, step s = .next t ∧ exec (.edge b ts) { s with inputs := rest } = .next t ∧
      t.blinkPending = some p ∧ t.inputs = rest) ∧
    ((∀ b ts, decode w ≠ .ok (.edge b ts)) → ∃ t, step s = .next t ∧ t.blinkPending = none ∧ t.inputs = s.inputs ∧
      t.responses = s.responses ++ [respWord .ok (p.fired.setWidth 32)])

/-- 70_reset_and_hazards.md section 3 (R240, and vector V4.7), with the free draw: in MULTI, a blink sampled in RED_ONLY, then
EDGE A, then the drive, ends with R and G on or with G alone, and the draw alone decides which. -/
def Obligations.StaleBlinkDriveMayLightTwoChannels : Prop :=
  ∀ (s : State) (now ts : Millis), s.cfg.variant = .multi → s.cfg.blinkPreemptible = true →
    s.cfg.freeRunningTimers = false → s.rst = false → s.blinkPending = none → s.indicatorMode = 0 →
    s.timer0.phase = false → s.cfg.periodRMs.toNat ≤ (now - s.timer0.lastToggle).toNat →
    s.cfg.debounceWindowMs.toNat ≤ (ts - s.lastEventTime).toNat →
    s.inputs = [.cmd (encode (.blinkTick now)), .cmd (encode (.edge .A ts)), .blinkDrive] →
    ∃ t, core.run 3 s = .next t ∧ t.indOut = (if Config.blinkDraw s.draws .t0 then 3 else 2) ∧ t.blinkPending = none

/-- 43_blink_scheduler.md section 4 (R149, which the spec derives from R144 and the host's 10 ms tick): from a toggle at
time L with period 333, ticks at L + 10, ..., L + 330 do not fire timer 1 and the tick at L + 340 does. -/
def Obligations.GreenBlueTimerDriftsToTheHostTick : Prop :=
  ∀ (s : State) (j : Nat), s.cfg.variant = .multi → s.cfg.blinkPreemptible = false → s.indicatorMode = 1 →
    s.cfg.periodGbMs = 333 → 1 ≤ j → j ≤ 34 →
    ∃ t, exec (.blinkTick (s.timer1.lastToggle + BitVec.ofNat 32 (10 * j))) s = .next t ∧
      (j < 34 → t.timer1 = s.timer1) ∧
      (j = 34 → t.timer1 = ⟨s.timer1.lastToggle + 340, !s.timer1.phase⟩)

/-! ## RENDER_TICK -/

/-- 44_render_driver.md R161, R162, R163: a digit 0..9 that is not the one displayed last (None equals none) pushes its 25
words in element order and becomes the one displayed last. Nothing else changes. -/
def Obligations.ChangedDigitPushesItsFrame : Prop :=
  ∀ (s : State) (h : s.currentDigit.toNat < 10),
    (s.lastDisplayed.valid = false ∨ s.lastDisplayed.digit ≠ s.currentDigit) →
    ∃ ws : List Pixel, exec .renderTick s = .next { s with
        pixStream := s.pixStream ++ ws
        lastDisplayed := ⟨true, s.currentDigit⟩
        responses := s.responses ++ [respWord .ok 25] } ∧
      ws.length = 25 ∧
      ∀ i : Nat, i < 25 → ws[i]? = some (if (s.cfg.font[s.currentDigit.toNat]).getLsbD i
        then enc s.cfg.fixedColor.r s.cfg.fixedColor.g s.cfg.fixedColor.b s.cfg.renderBrightness 1 else 0)

/-- 44_render_driver.md R164: a digit above 9 that is not the one displayed last pushes nothing, leaves last_displayed and
answers INVALID_DIGIT. -/
def Obligations.InvalidDigitIsSkipped : Prop :=
  ∀ s : State, 9 < s.currentDigit.toNat → s.lastDisplayed ≠ ⟨true, s.currentDigit⟩ →
    exec .renderTick s = .next { s with responses := s.responses ++ [respWord .invalidDigit 0] }

/-- 44_render_driver.md R165: a render of the digit displayed last pushes nothing, and whatever commands run with no accepted
EDGE among them push at most one frame in total. -/
def Obligations.RendersWithoutAnAcceptedEdgePushOneFrame : Prop :=
  (∀ s : State, s.lastDisplayed = ⟨true, s.currentDigit⟩ →
    exec .renderTick s = .next { s with responses := s.responses ++ [respWord .ok 0] }) ∧
  (∀ (is : List Instr) (s : State), acceptedCount .A is s = 0 → acceptedCount .B is s = 0 →
    ∃ t ws, execAll is s = .next t ∧ t.pixStream = s.pixStream ++ ws ∧ (ws = [] ∨ ws.length = 25))

/-- 44_render_driver.md section 3 (R167): the first RENDER_TICK after reset pushes the 25 words of digit 0, whatever the OPEN
parameters are. -/
def Obligations.FirstRenderShowsDigitZero : Prop :=
  ∃ t, exec .renderTick State.reset = .next t ∧ t.lastDisplayed = ⟨true, 0⟩ ∧ t.pixStream.length = 25 ∧
    t.responses = [respWord .ok 25] ∧
    ∀ i : Nat, i < 25 → t.pixStream[i]? = some (litWord Config.build (Config.build.font[0]) i)

/-- 44_render_driver.md section 3 (R168): word i of a frame depends on element i of the pattern alone, with the fixed colour
and brightness. -/
def Obligations.FrameLanesAreIndependent : Prop :=
  ∀ (s s' : State) (d i : Nat) (hd : d < 10), i < 25 →
    s.currentDigit = BitVec.ofNat 4 d → s'.currentDigit = BitVec.ofNat 4 d →
    s.lastDisplayed.valid = false → s'.lastDisplayed.valid = false → s.pixStream = [] → s'.pixStream = [] →
    s.cfg.fixedColor = s'.cfg.fixedColor → s.cfg.renderBrightness = s'.cfg.renderBrightness →
    (s.cfg.font[d]).getLsbD i = (s'.cfg.font[d]).getLsbD i →
    ∃ t t' w, exec .renderTick s = .next t ∧ exec .renderTick s' = .next t' ∧
      t.pixStream[i]? = some w ∧ t'.pixStream[i]? = some w

/-! ## The whole machine -/

/-- 10_state.md section 5 (R35): every step keeps the good states, from every good state, through any presentation. -/
def Obligations.EveryStepKeepsGoodStates : Prop :=
  ∀ s t : State, Good s → step s = .next t → Good t

/-- 20_memory.md R54, 44_render_driver.md R162: every step keeps a stream of whole frames, each word the lit word or 0. -/
def Obligations.EveryStepKeepsTheStreamOfFrames : Prop :=
  ∀ s t : State, GoodStream s → step s = .next t → GoodStream t

/-- 30_encoding.md R74: the status codes 4 to 7 are never produced. -/
def Obligations.EveryStepKeepsNamedStatuses : Prop :=
  ∀ s t : State, GoodResponses s → step s = .next t → GoodResponses t

/-- The three invariants hold at reset, whatever the OPEN parameters are. -/
def Obligations.ResetStateIsGood : Prop :=
  Good State.reset ∧ GoodStream State.reset ∧ GoodResponses State.reset

/-- 10_state.md section 5 (R35, last item): with atomic blinks, at most one MULTI channel is on in a good state, and exactly one
right after an accepted EDGE. -/
def Obligations.AtMostOneChannelIsOn : Prop :=
  (∀ s : State, Good s → s.cfg.variant = .multi → s.cfg.blinkPreemptible = false → channelsOn s.indOut ≤ 1) ∧
  (∀ (s : State) (b : Button) (ts : Millis), s.cfg.variant = .multi →
    s.cfg.debounceWindowMs.toNat ≤ (ts - s.lastEventTime).toNat →
    ∃ t, exec (.edge b ts) s = .next t ∧ channelsOn t.indOut = 1)

/-- 20_memory.md R54: the stream is empty at power-on and append-only; only a RENDER_TICK appends, and then exactly 25 words,
word j for pattern element j. -/
def Obligations.PixelStreamGrowsByWholeFrames : Prop :=
  State.reset.pixStream = [] ∧
  ∀ s t : State, step s = .next t →
    t.pixStream = s.pixStream ∨
    ∃ w rest pat, s.inputs = .cmd w :: rest ∧ decode w = .ok .renderTick ∧ fontRead s.cfg s.currentDigit = some pat ∧
      t.pixStream = s.pixStream ++ (List.range 25).map (litWord s.cfg pat)

/-- 20_memory.md R52: no step writes the font ROM, or any other build-time parameter (10_state.md R32): every read gives after
the step what it gave before. -/
def Obligations.NoStepWritesTheFontRom : Prop :=
  ∀ s t : State, step s = .next t → t.cfg = s.cfg ∧ ∀ d : Digit, fontRead t.cfg d = fontRead s.cfg d

/-- 10_state.md section 5 (R34), over every command: the shared fields are written by an accepted EDGE alone, the frame state
by RENDER_TICK alone, the timers by BLINK_TICK alone, ind_out by those two alone; LOOKUP and ENCODE write none. -/
def Obligations.EachFieldHasItsWriters : Prop :=
  ∀ (i : Instr) (s : State), ∃ t, exec i s = .next t ∧ t.cfg = s.cfg ∧ t.rst = s.rst ∧ t.inputs = s.inputs ∧
    (acceptedOn .A i s = false → acceptedOn .B i s = false →
      t.currentDigit = s.currentDigit ∧ t.indicatorMode = s.indicatorMode ∧ t.lastEventTime = s.lastEventTime) ∧
    (acceptedOn .A i s = false → t.pressCountA = s.pressCountA) ∧
    (acceptedOn .B i s = false → t.pressCountB = s.pressCountB) ∧
    (i ≠ .renderTick → t.lastDisplayed = s.lastDisplayed ∧ t.pixStream = s.pixStream) ∧
    ((∀ now, i ≠ .blinkTick now) → t.timer0 = s.timer0 ∧ t.timer1 = s.timer1 ∧ t.blinkPending = s.blinkPending ∧
      t.draws = s.draws) ∧
    ((∀ now, i ≠ .blinkTick now) → acceptedOn .A i s = false → acceptedOn .B i s = false → t.indOut = s.indOut)

/-- 42_input_capture.md R126 over a run (95_test_vectors.md L1.7): each press count moves by the number of presses of its button
that the run accepted, modulo 2^32. -/
def Obligations.PressCountsCountAcceptedPresses : Prop :=
  ∀ (is : List Instr) (s : State), ∃ t, execAll is s = .next t ∧
    pressCount .A t = pressCount .A s + BitVec.ofNat 32 (acceptedCount .A is s) ∧
    pressCount .B t = pressCount .B s + BitVec.ofNat 32 (acceptedCount .B is s)

/-- The debounce gate over a run of a host that keeps H2 (42_input_capture.md sections 2 and 3, 60_exceptions.md section 6): k
accepted presses, of either button, take at least k windows of time. -/
def Obligations.AcceptedPressesAreAWindowApart : Prop :=
  ∀ (is : List Instr) (s : State), NondecreasingFrom s.lastEventTime (edgeTimes is) →
    ∃ t, execAll is s = .next t ∧ s.lastEventTime.toNat ≤ t.lastEventTime.toNat ∧
      (acceptedCount .A is s + acceptedCount .B is s) * s.cfg.debounceWindowMs.toNat ≤
        t.lastEventTime.toNat - s.lastEventTime.toNat
end

