-- ==== Sys2Proof/Laws/Operands.lean ====
section
/-! SUPPORT. What the operand arithmetic gives, in numbers and bits. -/

namespace Sys2Proof.Machine

/-- A time difference as a number. -/
theorem elapsed_toNat (now last : Millis) :
    (elapsed now last).toNat = (now.toNat + 2 ^ 32 - last.toNat) % 2 ^ 32 := by
  simp only [elapsed, BitVec.toNat_sub]
  congr 1
  have := last.isLt
  omega

theorem elapsed_self (now : Millis) : elapsed now now = 0 := by simp [elapsed]

theorem insideWindow_iff (window ts last : Millis) :
    insideWindow window ts last = true ↔ (ts - last).toNat < window.toNat :=
  decide_eq_true_iff

theorem gateRejects_iff (ts : Millis) (s : State) :
    gateRejects ts s = true ↔ (ts - s.lastEventTime).toNat < s.cfg.debounceWindowMs.toNat := insideWindow_iff _ _ _

theorem gateRejects_false_iff (ts : Millis) (s : State) :
    gateRejects ts s = false ↔ s.cfg.debounceWindowMs.toNat ≤ (ts - s.lastEventTime).toNat := by
  rw [← Bool.not_eq_true, gateRejects_iff, Nat.not_lt]

@[simp] theorem digitUp_toNat (d : Digit) : (digitUp d).toNat = (d.toNat + 1) % 10 := by
  simp only [digitUp, BitVec.toNat_ofNat]
  omega

@[simp] theorem digitDown_toNat (d : Digit) : (digitDown d).toNat = (d.toNat + 9) % 10 := by
  simp only [digitDown, BitVec.toNat_ofNat]
  omega

/-- A component as a number: R111's product, floored and clamped. -/
theorem comp_toNat (br c : UQ15) (m : BitVec 1) :
    (comp br c m).toNat = min 255 (255 * br.toNat * c.toNat * m.toNat / 2 ^ 30) := by
  simp only [comp, BitVec.toNat_ofNat, Config.fracBits, Nat.shiftRight_eq_div_pow]
  exact Nat.mod_eq_of_lt (by omega)

/-- driveBit, bit by bit, where the variant has the channel's bit. -/
theorem driveBit_multi (ch : Channel) (lvl : Bool) (out : BitVec 3) :
    driveBit .multi ch lvl out = if lvl then out ||| channelBit ch else out &&& ~~~(channelBit ch) := by
  cases ch <;> rfl

theorem driveBit_single_led (lvl : Bool) (out : BitVec 3) :
    driveBit .single .led lvl out = if lvl then out ||| 1 else out &&& 6 := rfl

/-- SINGLE hardwires the bits of the other two channels: driving them does nothing. -/
theorem driveBit_single_hardwired (lvl : Bool) (out : BitVec 3) :
    driveBit .single .g lvl out = out ∧ driveBit .single .b lvl out = out := by
  revert lvl out
  decide

end Sys2Proof.Machine
end

