-- ==== Sys2Proof/Laws/State.lean ====
section
/-! SUPPORT. One lemma per field per update of State, so that no proof unfolds a record update. -/

namespace Sys2Proof.Machine

variable (s : State)

@[simp] theorem respond_cfg (st : Status) (v : Word32) : (respond st v s).cfg = s.cfg := rfl
@[simp] theorem respond_currentDigit (st : Status) (v : Word32) : (respond st v s).currentDigit = s.currentDigit := rfl
@[simp] theorem respond_indicatorMode (st : Status) (v : Word32) : (respond st v s).indicatorMode = s.indicatorMode := rfl
@[simp] theorem respond_lastEventTime (st : Status) (v : Word32) : (respond st v s).lastEventTime = s.lastEventTime := rfl
@[simp] theorem respond_pressCountA (st : Status) (v : Word32) : (respond st v s).pressCountA = s.pressCountA := rfl
@[simp] theorem respond_pressCountB (st : Status) (v : Word32) : (respond st v s).pressCountB = s.pressCountB := rfl
@[simp] theorem respond_indOut (st : Status) (v : Word32) : (respond st v s).indOut = s.indOut := rfl
@[simp] theorem respond_lastDisplayed (st : Status) (v : Word32) : (respond st v s).lastDisplayed = s.lastDisplayed := rfl
@[simp] theorem respond_timer0 (st : Status) (v : Word32) : (respond st v s).timer0 = s.timer0 := rfl
@[simp] theorem respond_timer1 (st : Status) (v : Word32) : (respond st v s).timer1 = s.timer1 := rfl
@[simp] theorem respond_pixStream (st : Status) (v : Word32) : (respond st v s).pixStream = s.pixStream := rfl
@[simp] theorem respond_responses (st : Status) (v : Word32) : (respond st v s).responses = s.responses ++ [respWord st v] := rfl
@[simp] theorem respond_rst (st : Status) (v : Word32) : (respond st v s).rst = s.rst := rfl
@[simp] theorem respond_inputs (st : Status) (v : Word32) : (respond st v s).inputs = s.inputs := rfl
@[simp] theorem respond_blinkPending (st : Status) (v : Word32) : (respond st v s).blinkPending = s.blinkPending := rfl
@[simp] theorem respond_draws (st : Status) (v : Word32) : (respond st v s).draws = s.draws := rfl

@[simp] theorem push_cfg (w : Pixel) : (push w s).cfg = s.cfg := rfl
@[simp] theorem push_currentDigit (w : Pixel) : (push w s).currentDigit = s.currentDigit := rfl
@[simp] theorem push_indicatorMode (w : Pixel) : (push w s).indicatorMode = s.indicatorMode := rfl
@[simp] theorem push_lastEventTime (w : Pixel) : (push w s).lastEventTime = s.lastEventTime := rfl
@[simp] theorem push_pressCountA (w : Pixel) : (push w s).pressCountA = s.pressCountA := rfl
@[simp] theorem push_pressCountB (w : Pixel) : (push w s).pressCountB = s.pressCountB := rfl
@[simp] theorem push_indOut (w : Pixel) : (push w s).indOut = s.indOut := rfl
@[simp] theorem push_lastDisplayed (w : Pixel) : (push w s).lastDisplayed = s.lastDisplayed := rfl
@[simp] theorem push_timer0 (w : Pixel) : (push w s).timer0 = s.timer0 := rfl
@[simp] theorem push_timer1 (w : Pixel) : (push w s).timer1 = s.timer1 := rfl
@[simp] theorem push_pixStream (w : Pixel) : (push w s).pixStream = s.pixStream ++ [w] := rfl
@[simp] theorem push_responses (w : Pixel) : (push w s).responses = s.responses := rfl
@[simp] theorem push_rst (w : Pixel) : (push w s).rst = s.rst := rfl
@[simp] theorem push_inputs (w : Pixel) : (push w s).inputs = s.inputs := rfl
@[simp] theorem push_blinkPending (w : Pixel) : (push w s).blinkPending = s.blinkPending := rfl
@[simp] theorem push_draws (w : Pixel) : (push w s).draws = s.draws := rfl

@[simp] theorem drive_cfg (ch : Channel) (lvl : Bool) : (drive ch lvl s).cfg = s.cfg := rfl
@[simp] theorem drive_currentDigit (ch : Channel) (lvl : Bool) : (drive ch lvl s).currentDigit = s.currentDigit := rfl
@[simp] theorem drive_indicatorMode (ch : Channel) (lvl : Bool) : (drive ch lvl s).indicatorMode = s.indicatorMode := rfl
@[simp] theorem drive_lastEventTime (ch : Channel) (lvl : Bool) : (drive ch lvl s).lastEventTime = s.lastEventTime := rfl
@[simp] theorem drive_pressCountA (ch : Channel) (lvl : Bool) : (drive ch lvl s).pressCountA = s.pressCountA := rfl
@[simp] theorem drive_pressCountB (ch : Channel) (lvl : Bool) : (drive ch lvl s).pressCountB = s.pressCountB := rfl
@[simp] theorem drive_indOut (ch : Channel) (lvl : Bool) : (drive ch lvl s).indOut = driveBit s.cfg.variant ch lvl s.indOut := rfl
@[simp] theorem drive_lastDisplayed (ch : Channel) (lvl : Bool) : (drive ch lvl s).lastDisplayed = s.lastDisplayed := rfl
@[simp] theorem drive_timer0 (ch : Channel) (lvl : Bool) : (drive ch lvl s).timer0 = s.timer0 := rfl
@[simp] theorem drive_timer1 (ch : Channel) (lvl : Bool) : (drive ch lvl s).timer1 = s.timer1 := rfl
@[simp] theorem drive_pixStream (ch : Channel) (lvl : Bool) : (drive ch lvl s).pixStream = s.pixStream := rfl
@[simp] theorem drive_responses (ch : Channel) (lvl : Bool) : (drive ch lvl s).responses = s.responses := rfl
@[simp] theorem drive_rst (ch : Channel) (lvl : Bool) : (drive ch lvl s).rst = s.rst := rfl
@[simp] theorem drive_inputs (ch : Channel) (lvl : Bool) : (drive ch lvl s).inputs = s.inputs := rfl
@[simp] theorem drive_blinkPending (ch : Channel) (lvl : Bool) : (drive ch lvl s).blinkPending = s.blinkPending := rfl
@[simp] theorem drive_draws (ch : Channel) (lvl : Bool) : (drive ch lvl s).draws = s.draws := rfl

@[simp] theorem releaseReset_cfg : (releaseReset s).cfg = s.cfg := rfl
@[simp] theorem releaseReset_currentDigit : (releaseReset s).currentDigit = s.currentDigit := rfl
@[simp] theorem releaseReset_indicatorMode : (releaseReset s).indicatorMode = s.indicatorMode := rfl
@[simp] theorem releaseReset_lastEventTime : (releaseReset s).lastEventTime = s.lastEventTime := rfl
@[simp] theorem releaseReset_pressCountA : (releaseReset s).pressCountA = s.pressCountA := rfl
@[simp] theorem releaseReset_pressCountB : (releaseReset s).pressCountB = s.pressCountB := rfl
@[simp] theorem releaseReset_indOut : (releaseReset s).indOut = s.indOut := rfl
@[simp] theorem releaseReset_lastDisplayed : (releaseReset s).lastDisplayed = s.lastDisplayed := rfl
@[simp] theorem releaseReset_timer0 : (releaseReset s).timer0 = s.timer0 := rfl
@[simp] theorem releaseReset_timer1 : (releaseReset s).timer1 = s.timer1 := rfl
@[simp] theorem releaseReset_pixStream : (releaseReset s).pixStream = s.pixStream := rfl
@[simp] theorem releaseReset_responses : (releaseReset s).responses = s.responses := rfl
@[simp] theorem releaseReset_rst : (releaseReset s).rst = false := rfl
@[simp] theorem releaseReset_inputs : (releaseReset s).inputs = s.inputs := rfl
@[simp] theorem releaseReset_blinkPending : (releaseReset s).blinkPending = s.blinkPending := rfl
@[simp] theorem releaseReset_draws : (releaseReset s).draws = s.draws := rfl

@[simp] theorem assertReset_cfg : (assertReset s).cfg = s.cfg := rfl
@[simp] theorem assertReset_currentDigit : (assertReset s).currentDigit = 0 := rfl
@[simp] theorem assertReset_indicatorMode : (assertReset s).indicatorMode = 0 := rfl
@[simp] theorem assertReset_lastEventTime : (assertReset s).lastEventTime = 0 := rfl
@[simp] theorem assertReset_pressCountA : (assertReset s).pressCountA = 0 := rfl
@[simp] theorem assertReset_pressCountB : (assertReset s).pressCountB = 0 := rfl
@[simp] theorem assertReset_indOut : (assertReset s).indOut = 0 := rfl
@[simp] theorem assertReset_lastDisplayed : (assertReset s).lastDisplayed = LastDisplayed.reset := rfl
@[simp] theorem assertReset_timer0 : (assertReset s).timer0 = Timer.reset := rfl
@[simp] theorem assertReset_timer1 : (assertReset s).timer1 = Timer.reset := rfl
@[simp] theorem assertReset_pixStream : (assertReset s).pixStream = s.pixStream := rfl
@[simp] theorem assertReset_responses : (assertReset s).responses = s.responses := rfl
@[simp] theorem assertReset_rst : (assertReset s).rst = true := rfl
@[simp] theorem assertReset_inputs : (assertReset s).inputs = s.inputs := rfl
@[simp] theorem assertReset_blinkPending : (assertReset s).blinkPending = none := rfl
@[simp] theorem assertReset_draws : (assertReset s).draws = s.draws := rfl

@[simp] theorem countPress_cfg (b : Button) : (countPress b s).cfg = s.cfg := by cases b <;> rfl
@[simp] theorem countPress_currentDigit (b : Button) : (countPress b s).currentDigit = s.currentDigit := by cases b <;> rfl
@[simp] theorem countPress_indicatorMode (b : Button) : (countPress b s).indicatorMode = s.indicatorMode := by cases b <;> rfl
@[simp] theorem countPress_lastEventTime (b : Button) : (countPress b s).lastEventTime = s.lastEventTime := by cases b <;> rfl
@[simp] theorem countPress_indOut (b : Button) : (countPress b s).indOut = s.indOut := by cases b <;> rfl
@[simp] theorem countPress_lastDisplayed (b : Button) : (countPress b s).lastDisplayed = s.lastDisplayed := by cases b <;> rfl
@[simp] theorem countPress_timer0 (b : Button) : (countPress b s).timer0 = s.timer0 := by cases b <;> rfl
@[simp] theorem countPress_timer1 (b : Button) : (countPress b s).timer1 = s.timer1 := by cases b <;> rfl
@[simp] theorem countPress_pixStream (b : Button) : (countPress b s).pixStream = s.pixStream := by cases b <;> rfl
@[simp] theorem countPress_responses (b : Button) : (countPress b s).responses = s.responses := by cases b <;> rfl
@[simp] theorem countPress_rst (b : Button) : (countPress b s).rst = s.rst := by cases b <;> rfl
@[simp] theorem countPress_inputs (b : Button) : (countPress b s).inputs = s.inputs := by cases b <;> rfl
@[simp] theorem countPress_blinkPending (b : Button) : (countPress b s).blinkPending = s.blinkPending := by cases b <;> rfl
@[simp] theorem countPress_draws (b : Button) : (countPress b s).draws = s.draws := by cases b <;> rfl

@[simp] theorem countPress_A_pressCountA : (countPress .A s).pressCountA = s.pressCountA + 1 := rfl
@[simp] theorem countPress_A_pressCountB : (countPress .A s).pressCountB = s.pressCountB := rfl
@[simp] theorem countPress_B_pressCountA : (countPress .B s).pressCountA = s.pressCountA := rfl
@[simp] theorem countPress_B_pressCountB : (countPress .B s).pressCountB = s.pressCountB + 1 := rfl

@[simp] theorem setTimer_cfg (k : TimerId) (t : Timer) : (setTimer k t s).cfg = s.cfg := by cases k <;> rfl
@[simp] theorem setTimer_currentDigit (k : TimerId) (t : Timer) : (setTimer k t s).currentDigit = s.currentDigit := by cases k <;> rfl
@[simp] theorem setTimer_indicatorMode (k : TimerId) (t : Timer) : (setTimer k t s).indicatorMode = s.indicatorMode := by cases k <;> rfl
@[simp] theorem setTimer_lastEventTime (k : TimerId) (t : Timer) : (setTimer k t s).lastEventTime = s.lastEventTime := by cases k <;> rfl
@[simp] theorem setTimer_pressCountA (k : TimerId) (t : Timer) : (setTimer k t s).pressCountA = s.pressCountA := by cases k <;> rfl
@[simp] theorem setTimer_pressCountB (k : TimerId) (t : Timer) : (setTimer k t s).pressCountB = s.pressCountB := by cases k <;> rfl
@[simp] theorem setTimer_indOut (k : TimerId) (t : Timer) : (setTimer k t s).indOut = s.indOut := by cases k <;> rfl
@[simp] theorem setTimer_lastDisplayed (k : TimerId) (t : Timer) : (setTimer k t s).lastDisplayed = s.lastDisplayed := by cases k <;> rfl
@[simp] theorem setTimer_pixStream (k : TimerId) (t : Timer) : (setTimer k t s).pixStream = s.pixStream := by cases k <;> rfl
@[simp] theorem setTimer_responses (k : TimerId) (t : Timer) : (setTimer k t s).responses = s.responses := by cases k <;> rfl
@[simp] theorem setTimer_rst (k : TimerId) (t : Timer) : (setTimer k t s).rst = s.rst := by cases k <;> rfl
@[simp] theorem setTimer_inputs (k : TimerId) (t : Timer) : (setTimer k t s).inputs = s.inputs := by cases k <;> rfl
@[simp] theorem setTimer_blinkPending (k : TimerId) (t : Timer) : (setTimer k t s).blinkPending = s.blinkPending := by cases k <;> rfl
@[simp] theorem setTimer_draws (k : TimerId) (t : Timer) : (setTimer k t s).draws = s.draws := by cases k <;> rfl

@[simp] theorem setTimer_t0_timer0 (t : Timer) : (setTimer .t0 t s).timer0 = t := rfl
@[simp] theorem setTimer_t0_timer1 (t : Timer) : (setTimer .t0 t s).timer1 = s.timer1 := rfl
@[simp] theorem setTimer_t1_timer0 (t : Timer) : (setTimer .t1 t s).timer0 = s.timer0 := rfl
@[simp] theorem setTimer_t1_timer1 (t : Timer) : (setTimer .t1 t s).timer1 = t := rfl
@[simp] theorem getTimer_t0 : getTimer .t0 s = s.timer0 := rfl
@[simp] theorem getTimer_t1 : getTimer .t1 s = s.timer1 := rfl

end Sys2Proof.Machine
end

