-- ==== Sys2Proof/Laws/Ops.lean ====
section
/-! SUPPORT. One lemma per shared operation that says all it can do; the provers cite these and unfold none of them. -/

namespace Sys2Proof.Machine

/-- A response word carries its status. -/
@[simp] theorem respStatus_respWord (st : Status) (v : Word32) : respStatus (respWord st v) = statusCode st := by
  apply BitVec.eq_of_getLsbD_eq
  intro i hi
  simp only [respStatus, respWord, BitVec.getLsbD_extractLsb', BitVec.getLsbD_append]
  simp [hi]

/-- A response word carries its data. -/
@[simp] theorem respData_respWord (st : Status) (v : Word32) : respData (respWord st v) = v := by
  apply BitVec.eq_of_getLsbD_eq
  intro i hi
  simp only [respData, respWord, BitVec.getLsbD_extractLsb', BitVec.getLsbD_append]
  simp [hi]

/-- respond appends one response and changes nothing else. -/
theorem respond_spec (st : Status) (v : Word32) (s : State) :
    respond st v s = { s with responses := s.responses ++ [respWord st v] } := rfl

/-- pushAll appends its words in order and changes nothing else. -/
theorem pushAll_spec (ws : List Pixel) (s : State) : pushAll ws s = { s with pixStream := s.pixStream ++ ws } := by
  induction ws generalizing s with
  | nil => simp [pushAll]
  | cons w ws ih => simp [pushAll, ih, push]

/-- The ind_out that driving a list of channels with one level leaves. -/
def drivenOut (v : Variant) : List Channel → Bool → BitVec 3 → BitVec 3
  | [], _, out => out
  | ch :: chs, lvl, out => drivenOut v chs lvl (driveBit v ch lvl out)

/-- driveAll changes ind_out alone. -/
theorem driveAll_spec (chs : List Channel) (lvl : Bool) (s : State) :
    driveAll chs lvl s = { s with indOut := drivenOut s.cfg.variant chs lvl s.indOut } := by
  induction chs generalizing s with
  | nil => rfl
  | cons ch chs ih => simp [driveAll, ih, drivenOut, drive]

/-- driveTimer changes ind_out alone, by the timer's channels and phase. -/
theorem driveTimer_spec (k : TimerId) (m : ModeCode) (s : State) :
    driveTimer k m s =
      { s with indOut := drivenOut s.cfg.variant (timerChannels s.cfg.variant k m) (getTimer k s).phase s.indOut } :=
  driveAll_spec _ _ _

/-- fontRead gives an entry exactly for a digit 0..9. -/
theorem fontRead_eq_none_iff (c : Config) (d : Digit) : fontRead c d = none ↔ 10 ≤ d.toNat := by simp [fontRead]

theorem fontRead_of_lt (c : Config) (d : Digit) (h : d.toNat < 10) : fontRead c d = some c.font[d.toNat] := by
  simp [fontRead, h]

theorem lt_of_fontRead (c : Config) (d : Digit) (pat : Pattern) (h : fontRead c d = some pat) : d.toNat < 10 := by
  by_contra h'
  rw [(fontRead_eq_none_iff c d).2 (by omega)] at h
  cases h

/-- postPressDrive changes ind_out alone. -/
theorem postPressDrive_spec (m : ModeCode) (s : State) :
    postPressDrive m s = { s with indOut := (postPressDrive m s).indOut } := by
  unfold postPressDrive
  split <;> rfl

/-- lookupDigit appends one response and changes nothing else. -/
theorem lookupDigit_spec (d : Digit) (s : State) :
    ∃ st v, lookupDigit d s = respond st v s ∧ (st = .ok ∨ st = .invalidDigit) := by
  unfold lookupDigit
  split
  · exact ⟨_, _, rfl, .inl rfl⟩
  · exact ⟨_, _, rfl, .inr rfl⟩

/-- edgeEvent drops the edge with a response, or applies the press and answers OK. -/
theorem edgeEvent_spec (b : Button) (ts : Millis) (s : State) :
    (gateRejects ts s = true ∧ edgeEvent b ts s = respond .spuriousEdge (s.currentDigit.setWidth 32) s) ∨
    (gateRejects ts s = false ∧ edgeEvent b ts s =
      respond .ok ((pressDigit b s.currentDigit).setWidth 32)
        { countPress b s with
          lastEventTime := ts
          currentDigit := pressDigit b s.currentDigit
          indicatorMode := pressMode s.cfg.variant b
          indOut := (acceptPress b ts s).indOut }) := by
  unfold edgeEvent
  cases hg : gateRejects ts s
  · refine .inr ⟨rfl, ?_⟩
    cases hv : s.cfg.variant <;> cases b <;> simp [acceptPress, postPressDrive, countPress, hv, respond, drive]
  · exact .inl ⟨rfl, rfl⟩

/-- renderDigit answers and no more, or pushes the digit's frame and records the digit. -/
theorem renderDigit_spec (d : Digit) (s : State) :
    (alreadyDisplayed d s = true ∧ renderDigit d s = respond .ok 0 s) ∨
    (alreadyDisplayed d s = false ∧ fontRead s.cfg d = none ∧ renderDigit d s = respond .invalidDigit 0 s) ∨
    (alreadyDisplayed d s = false ∧ ∃ pat, fontRead s.cfg d = some pat ∧ renderDigit d s =
      respond .ok 25 { s with pixStream := s.pixStream ++ frame s.cfg pat, lastDisplayed := ⟨true, d⟩ }) := by
  unfold renderDigit
  cases alreadyDisplayed d s
  · cases hf : fontRead s.cfg d
    · exact .inr (.inl ⟨rfl, rfl, rfl⟩)
    · exact .inr (.inr ⟨rfl, _, rfl, by simp [pushAll_spec]⟩)
  · exact .inl ⟨rfl, rfl⟩

theorem frame_length (c : Config) (pat : Pattern) : (frame c pat).length = 25 := by simp [frame, Config.numPixels]

/-- The atomic loop changes the timers and ind_out alone. -/
theorem blinkLoop_frame (m : ModeCode) (now : Millis) (ks : List TimerId) (f : BitVec 2) (s : State) :
    ∃ t0 t1 out, (blinkLoop m now ks f s).1 = { s with timer0 := t0, timer1 := t1, indOut := out } := by
  induction ks generalizing f s with
  | nil => exact ⟨_, _, _, rfl⟩
  | cons k ks ih =>
    unfold blinkLoop
    split
    · obtain ⟨t0, t1, out, h⟩ := ih (f ||| firedBit k) (driveTimer k m (toggleTimer k now s))
      refine ⟨t0, t1, out, ?_⟩
      rw [h, driveTimer_spec]
      cases k <;> rfl
    · exact ih f s

/-- The sample's loop changes the timers alone. -/
theorem sampleLoop_frame (m : ModeCode) (now : Millis) (ks : List TimerId) (f : BitVec 2) (s : State) :
    ∃ t0 t1, (sampleLoop m now ks f s).1 = { s with timer0 := t0, timer1 := t1 } := by
  induction ks generalizing f s with
  | nil => exact ⟨_, _, rfl⟩
  | cons k ks ih =>
    unfold sampleLoop
    split
    · obtain ⟨t0, t1, h⟩ := ih (f ||| firedBit k) (toggleTimer k now s)
      refine ⟨t0, t1, ?_⟩
      rw [h]
      cases k <;> rfl
    · exact ih f s

/-- The drive's loop changes ind_out alone. -/
theorem driveLoop_frame (p : BlinkPending) (ks : List TimerId) (s : State) :
    ∃ out, driveLoop p ks s = { s with indOut := out } := by
  induction ks generalizing s with
  | nil => exact ⟨_, rfl⟩
  | cons k ks ih =>
    unfold driveLoop
    split
    · exact ih s
    · obtain ⟨out, h⟩ := ih (driveTimer k (drawnMode p k s) s)
      exact ⟨out, by rw [h, driveTimer_spec]⟩

/-- A blink tick, atomic or sampled, changes the timers, and ind_out and the responses or the pending blink. -/
theorem blinkTick_frame (now : Millis) (s : State) :
    (s.cfg.blinkPreemptible = false ∧ ∃ t0 t1 out v, blinkTick now s =
      respond .ok v { s with timer0 := t0, timer1 := t1, indOut := out }) ∨
    (s.cfg.blinkPreemptible = true ∧ ∃ t0 t1 p, p.mode = s.indicatorMode ∧ blinkTick now s =
      { s with timer0 := t0, timer1 := t1, blinkPending := some p }) := by
  unfold blinkTick
  cases s.cfg.blinkPreemptible
  · obtain ⟨t0, t1, out, h⟩ := blinkLoop_frame s.indicatorMode now (variantTimers s.cfg.variant) 0 s
    exact .inl ⟨rfl, t0, t1, out, _, by simp only [blinkAtomic]; rw [h]; rfl⟩
  · obtain ⟨t0, t1, h⟩ := sampleLoop_frame s.indicatorMode now (variantTimers s.cfg.variant) 0 s
    exact .inr ⟨rfl, t0, t1, ⟨s.indicatorMode, _⟩, rfl, by simp only [blinkSample]; rw [h]; rfl⟩

/-- A blink's end drives, answers and leaves no blink under way. -/
theorem blinkDrive_frame (p : BlinkPending) (s : State) :
    ∃ out, blinkDrive p s =
      respond .ok (p.fired.setWidth 32) { s with indOut := out, blinkPending := none, draws := s.draws + 1 } := by
  obtain ⟨out, h⟩ := driveLoop_frame p (variantTimers s.cfg.variant) s
  exact ⟨out, by simp only [blinkDrive]; rw [h]⟩

end Sys2Proof.Machine
end

