-- ==== Sys2Proof/Laws/Blink.lean ====
section
/-! SUPPORT. What a blink does, for each variant, as one record: which timers are due, and what the fired ones leave in
ind_out. -/

namespace Sys2Proof.Machine

/-- A due timer: the mode uses it, or timers run freely, and its period has passed. -/
theorem timerDue_iff (k : TimerId) (m : ModeCode) (now : Millis) (s : State) :
    timerDue k m now s = true ↔ (usesTimer s.cfg.variant k m = true ∨ s.cfg.freeRunningTimers = true) ∧
      (period s.cfg k).toNat ≤ (now - (getTimer k s).lastToggle).toNat := by
  unfold timerDue elapsed
  rw [Bool.and_eq_true, Bool.or_eq_true, decide_eq_true_iff]

/-- The ind_out a timer leaves if it fires, driving its channels of mode m with a level. -/
def outAfter (v : Variant) (k : TimerId) (m : ModeCode) (fires lvl : Bool) (out : BitVec 3) : BitVec 3 :=
  if fires then drivenOut v (timerChannels v k m) lvl out else out

/-- The mask of the timers that fire. -/
def firedMask (d0 d1 : Bool) : BitVec 2 := (if d0 then 1 else 0) + (if d1 then 2 else 0)

/-- The timer after a blink at now, if it fires. -/
def timerAfter (fires : Bool) (now : Millis) (t : Timer) : Timer := if fires then toggled now t else t

theorem blinkLoop_due {k : TimerId} {m : ModeCode} {now : Millis} {s : State} (h : timerDue k m now s = true)
    (ks : List TimerId) (f : BitVec 2) : blinkLoop m now (k :: ks) f s =
      blinkLoop m now ks (f ||| firedBit k) (driveTimer k m (toggleTimer k now s)) := if_pos h

theorem blinkLoop_not_due {k : TimerId} {m : ModeCode} {now : Millis} {s : State} (h : timerDue k m now s = false)
    (ks : List TimerId) (f : BitVec 2) : blinkLoop m now (k :: ks) f s = blinkLoop m now ks f s :=
  if_neg (by rw [h]; decide)

/-- A fired timer's record: toggled, its channels driven with the new phase. -/
theorem driveTimer_toggleTimer_t0 (m : ModeCode) (now : Millis) (s : State) :
    driveTimer .t0 m (toggleTimer .t0 now s) = { s with
      timer0 := toggled now s.timer0
      indOut := drivenOut s.cfg.variant (timerChannels s.cfg.variant .t0 m) (!s.timer0.phase) s.indOut } := by
  rw [driveTimer_spec]; rfl

theorem driveTimer_toggleTimer_t1 (m : ModeCode) (now : Millis) (s : State) :
    driveTimer .t1 m (toggleTimer .t1 now s) = { s with
      timer1 := toggled now s.timer1
      indOut := drivenOut s.cfg.variant (timerChannels s.cfg.variant .t1 m) (!s.timer1.phase) s.indOut } := by
  rw [driveTimer_spec]; rfl

/-- An atomic blink in SINGLE. -/
theorem blinkAtomic_single (now : Millis) (s : State) (hv : s.cfg.variant = .single) :
    blinkAtomic now s =
      let d0 := timerDue .t0 s.indicatorMode now s
      respond .ok ((firedMask d0 false).setWidth 32) { s with
        timer0 := timerAfter d0 now s.timer0
        indOut := outAfter .single .t0 s.indicatorMode d0 (!s.timer0.phase) s.indOut } := by
  unfold blinkAtomic
  rw [hv, variantTimers]
  cases hd : timerDue .t0 s.indicatorMode now s
  · rw [blinkLoop_not_due hd]; rfl
  · rw [blinkLoop_due hd, driveTimer_toggleTimer_t0, hv]; rfl

/-- An atomic blink in MULTI: the timers are independent (43_blink_scheduler.md R146). -/
theorem blinkAtomic_multi (now : Millis) (s : State) (hv : s.cfg.variant = .multi) :
    blinkAtomic now s =
      let d0 := timerDue .t0 s.indicatorMode now s
      let d1 := timerDue .t1 s.indicatorMode now s
      respond .ok ((firedMask d0 d1).setWidth 32) { s with
        timer0 := timerAfter d0 now s.timer0
        timer1 := timerAfter d1 now s.timer1
        indOut := outAfter .multi .t1 s.indicatorMode d1 (!s.timer1.phase)
          (outAfter .multi .t0 s.indicatorMode d0 (!s.timer0.phase) s.indOut) } := by
  have h1 : timerDue .t1 s.indicatorMode now (driveTimer .t0 s.indicatorMode (toggleTimer .t0 now s)) =
      timerDue .t1 s.indicatorMode now s := by
    rw [driveTimer_spec]; rfl
  unfold blinkAtomic
  rw [hv, variantTimers]
  cases hd : timerDue .t0 s.indicatorMode now s <;> cases he : timerDue .t1 s.indicatorMode now s
  · rw [blinkLoop_not_due hd, blinkLoop_not_due he]; rfl
  · rw [blinkLoop_not_due hd, blinkLoop_due he, driveTimer_toggleTimer_t1, hv]; rfl
  · rw [blinkLoop_due hd, blinkLoop_not_due (h1.trans he), driveTimer_toggleTimer_t0, hv]; rfl
  · rw [blinkLoop_due hd, blinkLoop_due (h1.trans he), driveTimer_toggleTimer_t0, driveTimer_toggleTimer_t1, hv]; rfl

/-- The first step of a preemptible blink in SINGLE. -/
theorem blinkSample_single (now : Millis) (s : State) (hv : s.cfg.variant = .single) :
    blinkSample now s =
      let d0 := timerDue .t0 s.indicatorMode now s
      { s with
        timer0 := timerAfter d0 now s.timer0
        blinkPending := some ⟨s.indicatorMode, firedMask d0 false⟩ } := by
  cases hd : timerDue .t0 s.indicatorMode now s
  · simp [blinkSample, hv, variantTimers, sampleLoop, hd, timerAfter, firedMask]
  · simp only [blinkSample, hv, variantTimers, sampleLoop, hd, if_true, timerAfter]
    rfl

/-- The first step of a preemptible blink in MULTI. -/
theorem blinkSample_multi (now : Millis) (s : State) (hv : s.cfg.variant = .multi) :
    blinkSample now s =
      let d0 := timerDue .t0 s.indicatorMode now s
      let d1 := timerDue .t1 s.indicatorMode now s
      { s with
        timer0 := timerAfter d0 now s.timer0
        timer1 := timerAfter d1 now s.timer1
        blinkPending := some ⟨s.indicatorMode, firedMask d0 d1⟩ } := by
  have h1 : timerDue .t1 s.indicatorMode now (toggleTimer .t0 now s) = timerDue .t1 s.indicatorMode now s := rfl
  cases hd : timerDue .t0 s.indicatorMode now s <;> cases he : timerDue .t1 s.indicatorMode now s
  · simp [blinkSample, hv, variantTimers, sampleLoop, hd, he, timerAfter, firedMask]
  · simp only [blinkSample, hv, variantTimers, sampleLoop, hd, he, if_true, Bool.false_eq_true, if_false, timerAfter]
    rfl
  · simp only [blinkSample, hv, variantTimers, sampleLoop, hd, h1, he, if_true, Bool.false_eq_true, if_false, timerAfter]
    rfl
  · simp only [blinkSample, hv, variantTimers, sampleLoop, hd, h1, he, if_true, timerAfter]
    rfl

/-- The ind_out one timer's part of a pending blink's drive leaves. -/
def pendingOut (p : BlinkPending) (k : TimerId) (s : State) (out : BitVec 3) : BitVec 3 :=
  if p.fired &&& firedBit k = 0 then out
  else drivenOut s.cfg.variant (timerChannels s.cfg.variant k (drawnMode p k s)) (getTimer k s).phase out

/-- The second step of a blink in SINGLE. -/
theorem blinkDrive_single (p : BlinkPending) (s : State) (hv : s.cfg.variant = .single) :
    blinkDrive p s = respond .ok (p.fired.setWidth 32)
      { s with indOut := pendingOut p .t0 s s.indOut, blinkPending := none, draws := s.draws + 1 } := by
  simp only [blinkDrive, hv, variantTimers, driveLoop, pendingOut]
  split
  · rfl
  · rw [driveTimer_spec, hv]

/-- The second step of a blink in MULTI. -/
theorem blinkDrive_multi (p : BlinkPending) (s : State) (hv : s.cfg.variant = .multi) :
    blinkDrive p s = respond .ok (p.fired.setWidth 32) { s with
      indOut := pendingOut p .t1 s (pendingOut p .t0 s s.indOut), blinkPending := none, draws := s.draws + 1 } := by
  simp only [blinkDrive, hv, variantTimers, driveLoop, pendingOut]
  by_cases h0 : p.fired &&& firedBit .t0 = 0 <;> by_cases h1 : p.fired &&& firedBit .t1 = 0 <;>
    simp only [h0, h1, if_true, if_false, driveTimer_spec, hv]
  all_goals rfl

/-- The bits a fired timer 0 leaves in MULTI: R takes the level in RED_ONLY, and no other bit moves. -/
theorem outAfter_multi_t0 (m : ModeCode) (fires lvl : Bool) (out : BitVec 3) :
    (outAfter .multi .t0 m fires lvl out).getLsbD 0 = (if fires = true ∧ m = 0 then lvl else out.getLsbD 0) ∧
    (outAfter .multi .t0 m fires lvl out).getLsbD 1 = out.getLsbD 1 ∧
    (outAfter .multi .t0 m fires lvl out).getLsbD 2 = out.getLsbD 2 := by
  revert m fires lvl out
  decide

/-- The bits a fired timer 1 leaves in MULTI: G takes the level in GREEN_ONLY, B in BLUE_ONLY, and R does not move. -/
theorem outAfter_multi_t1 (m : ModeCode) (fires lvl : Bool) (out : BitVec 3) :
    (outAfter .multi .t1 m fires lvl out).getLsbD 0 = out.getLsbD 0 ∧
    (outAfter .multi .t1 m fires lvl out).getLsbD 1 = (if fires = true ∧ m = 1 then lvl else out.getLsbD 1) ∧
    (outAfter .multi .t1 m fires lvl out).getLsbD 2 = (if fires = true ∧ m = 2 then lvl else out.getLsbD 2) := by
  revert m fires lvl out
  decide

/-- The bits a fired timer leaves in SINGLE: LED takes the level in ACTIVE, and the hardwired bits do not move. -/
theorem outAfter_single (m : ModeCode) (fires lvl : Bool) (out : BitVec 3) :
    (outAfter .single .t0 m fires lvl out).getLsbD 0 = (if fires = true ∧ m = 1 then lvl else out.getLsbD 0) ∧
    outAfter .single .t0 m fires lvl out &&& 6 = out &&& 6 := by
  revert m fires lvl out
  decide

/-- A pending timer's part of the drive is that of a timer that fires, in the mode drawn. -/
theorem pendingOut_eq (p : BlinkPending) (k : TimerId) (s : State) (out : BitVec 3) :
    pendingOut p k s out =
      outAfter s.cfg.variant k (drawnMode p k s) (decide (p.fired &&& firedBit k ≠ 0)) (getTimer k s).phase out := by
  unfold pendingOut outAfter
  by_cases h : p.fired &&& firedBit k = 0 <;> simp [h]

/-- The draw takes the mode sampled first or the mode now, and which is left open. -/
theorem drawnMode_cases (p : BlinkPending) (k : TimerId) (s : State) :
    drawnMode p k s = p.mode ∨ drawnMode p k s = s.indicatorMode := by
  unfold drawnMode
  split
  · exact .inl rfl
  · exact .inr rfl

end Sys2Proof.Machine
end

