-- ==== Sys2Proof/Laws/Encoding.lean ====
section
/-! SUPPORT. The three fields of a format C word, taken apart and put together. -/

namespace Sys2Proof

@[simp] theorem cmdOp_mkCmd (op sub : BitVec 4) (data : BitVec 64) : cmdOp (mkCmd op sub data) = op := by
  apply BitVec.eq_of_getLsbD_eq
  intro i hi
  simp only [cmdOp, mkCmd, BitVec.getLsbD_extractLsb', BitVec.getLsbD_append]
  simp [hi, show ¬ 68 + i < 64 by omega, show ¬ 68 + i - 64 < 4 by omega, show 68 + i - 64 - 4 = i by omega]

@[simp] theorem cmdSub_mkCmd (op sub : BitVec 4) (data : BitVec 64) : cmdSub (mkCmd op sub data) = sub := by
  apply BitVec.eq_of_getLsbD_eq
  intro i hi
  simp only [cmdSub, mkCmd, BitVec.getLsbD_extractLsb', BitVec.getLsbD_append]
  simp [hi]

@[simp] theorem cmdData_mkCmd (op sub : BitVec 4) (data : BitVec 64) : cmdData (mkCmd op sub data) = data := by
  apply BitVec.eq_of_getLsbD_eq
  intro i hi
  simp only [cmdData, mkCmd, BitVec.getLsbD_extractLsb', BitVec.getLsbD_append]
  simp [hi]

/-- Every word is the word of its fields. -/
theorem mkCmd_fields (w : Cmd) : mkCmd (cmdOp w) (cmdSub w) (cmdData w) = w := by
  apply BitVec.eq_of_getLsbD_eq
  intro i hi
  simp only [cmdOp, cmdSub, cmdData, mkCmd, BitVec.getLsbD_extractLsb', BitVec.getLsbD_append]
  by_cases h1 : i < 64
  · simp [h1]
  · by_cases h2 : i - 64 < 4
    · simp [h1, h2, show 64 + (i - 64) = i by omega]
    · simp [h1, h2, show 68 + (i - 64 - 4) = i by omega]
      omega

end Sys2Proof
end

