-- ==== Sys2Proof/Laws/PerInstr.lean ====
section
/-! SUPPORT. The families of statements made of each command (LAWS.json), one lemma per constructor of Instr. -/

namespace Sys2Proof

theorem mkCmd_and (op op' sub sub' : BitVec 4) (data data' : BitVec 64) :
    mkCmd op sub data &&& mkCmd op' sub' data' = mkCmd (op &&& op') (sub &&& sub') (data &&& data') := by
  apply BitVec.eq_of_getLsbD_eq
  intro i _
  simp only [mkCmd, BitVec.getLsbD_and, BitVec.getLsbD_append]
  split
  · rfl
  · split <;> rfl

/-- The word of every command meets its row of spec/opcode_table.json: masked, it is the row's pattern. -/
def Laws.TableMatch.Statement (i : Instr) : Prop := (tableRow i).holds (encode i) = true

namespace Laws.TableMatch

theorem edge (btn : Button) (ts : Millis) : Statement (.edge btn ts) := by
  have hm : (0xFEFFFFFFFF00000000 : Cmd) = mkCmd 0xF 0xE 0xFFFFFFFF00000000 := by decide
  have hd : ((0 : BitVec 32) ++ ts) &&& (0xFFFFFFFF00000000 : BitVec 64) = 0 := by
    rw [show (0xFFFFFFFF00000000 : BitVec 64) = (0xFFFFFFFF : BitVec 32) ++ (0 : BitVec 32) by decide, BitVec.and_append]
    simp
  simp only [Statement, TableRow.holds, tableRow, encode, hm, mkCmd_and, hd, decide_eq_true_eq]
  cases btn <;> decide

theorem blinkTick (now : Millis) : Statement (.blinkTick now) := by
  have hm : (0xFFFFFFFFFF00000000 : Cmd) = mkCmd 0xF 0xF 0xFFFFFFFF00000000 := by decide
  have hd : ((0 : BitVec 32) ++ now) &&& (0xFFFFFFFF00000000 : BitVec 64) = 0 := by
    rw [show (0xFFFFFFFF00000000 : BitVec 64) = (0xFFFFFFFF : BitVec 32) ++ (0 : BitVec 32) by decide, BitVec.and_append]
    simp
  simp only [Statement, TableRow.holds, tableRow, encode, hm, mkCmd_and, hd, decide_eq_true_eq]
  decide

theorem renderTick : Statement .renderTick := by
  simp only [Statement]
  decide

theorem lookup (d : Digit) : Statement (.lookup d) := by
  simp only [Statement]
  revert d
  decide

theorem encode (r g b br : UQ15) (m : BitVec 1) : Statement (.encode r g b br m) := by
  have hm : (0xFE0000000000000000 : Cmd) = mkCmd 0xF 0xE 0 := by decide
  have hd : (r ++ g ++ b ++ br : BitVec 64) &&& 0 = 0 := BitVec.and_zero
  have hs : ∀ m : BitVec 1, ((0 : BitVec 3) ++ m : BitVec 4) &&& 0xE = 0 := by decide
  simp only [Statement, TableRow.holds, tableRow, Sys2Proof.encode, hm, mkCmd_and, hd, hs, decide_eq_true_eq]
  decide

end Laws.TableMatch

end Sys2Proof
end

