-- ==== Sys2Proof/Laws/Step.lean ====
section
/-! SUPPORT. What one step can do, said once: the five shapes of a next state. -/

namespace Sys2Proof.Machine

/-- finishBlink does nothing, or ends the pending blink. -/
theorem finishBlink_spec (s : State) :
    (s.blinkPending = none ∧ finishBlink s = s) ∨
    ∃ p, s.blinkPending = some p ∧ finishBlink s = blinkDrive p s := by
  unfold finishBlink
  cases s.blinkPending
  · exact .inl ⟨rfl, rfl⟩
  · exact .inr ⟨_, rfl, rfl⟩

/-- Ending a blink, where rst lets it, does nothing or is the pending blink's drive. -/
theorem ended_spec (s : State) :
    (if s.rst then s else finishBlink s) = s ∨
    ∃ p, s.blinkPending = some p ∧ s.rst = false ∧ (if s.rst then s else finishBlink s) = blinkDrive p s := by
  by_cases hr : s.rst = true
  · exact .inl (if_pos hr)
  · rw [if_neg hr]
    obtain ⟨_, hf⟩ | ⟨p, hp, hf⟩ := finishBlink_spec s
    · exact .inl hf
    · exact .inr ⟨p, hp, by simpa using hr, hf⟩

/-- exec answers the next state its meaning computes. -/
theorem exec_next_cases (i : Instr) (s t : State) (h : exec i s = .next t) :
    (∃ b ts, i = .edge b ts ∧ t = edgeEvent b ts s) ∨ (∃ now, i = .blinkTick now ∧ t = blinkTick now s) ∨
    (i = .renderTick ∧ t = renderDigit s.currentDigit s) ∨ (∃ d, i = .lookup d ∧ t = lookupDigit d s) ∨
    (∃ r g b br m, i = .encode r g b br m ∧ t = respond .ok (enc r g b br m) s) := by
  cases i <;> cases h
  · exact .inl ⟨_, _, rfl, rfl⟩
  · exact .inr (.inl ⟨_, rfl, rfl⟩)
  · exact .inr (.inr (.inl ⟨rfl, rfl⟩))
  · exact .inr (.inr (.inr (.inl ⟨_, rfl, rfl⟩)))
  · exact .inr (.inr (.inr (.inr ⟨_, _, _, _, _, rfl, rfl⟩)))

/-- A command answers with one response whose status is a command's own, or, where a blink is sampled, with none yet. -/
theorem exec_responses (i : Instr) (s t : State) (h : exec i s = .next t) :
    t.responses = s.responses ∨ ∃ st v, st ≠ .illegalCmd ∧ t.responses = s.responses ++ [respWord st v] := by
  obtain ⟨b, ts, -, rfl⟩ | ⟨now, -, rfl⟩ | ⟨-, rfl⟩ | ⟨d, -, rfl⟩ | ⟨r, g, b, br, m, -, rfl⟩ := exec_next_cases i s t h
  · obtain ⟨-, e⟩ | ⟨-, e⟩ := edgeEvent_spec b ts s <;> rw [e]
    · exact .inr ⟨.spuriousEdge, _, nofun, rfl⟩
    · exact .inr ⟨.ok, (pressDigit b s.currentDigit).setWidth 32, nofun, by simp⟩
  · obtain ⟨-, _, _, _, _, e⟩ | ⟨-, _, _, _, _, e⟩ := blinkTick_frame now s <;> rw [e]
    · exact .inr ⟨.ok, _, nofun, rfl⟩
    · exact .inl rfl
  · obtain ⟨-, e⟩ | ⟨-, -, e⟩ | ⟨-, _, -, e⟩ := renderDigit_spec s.currentDigit s <;> rw [e]
    · exact .inr ⟨.ok, _, nofun, rfl⟩
    · exact .inr ⟨.invalidDigit, _, nofun, rfl⟩
    · exact .inr ⟨.ok, _, nofun, rfl⟩
  · obtain ⟨st, v, e, hst⟩ := lookupDigit_spec d s
    rw [e]
    exact .inr ⟨st, v, by obtain rfl | rfl := hst <;> nofun, rfl⟩
  · exact .inr ⟨.ok, _, nofun, rfl⟩

/-- One step: nothing or an ended blink, with or without a presentation taken; the reset input's level; a command run; an
ILLEGAL word answered; a command ignored while rst is asserted. -/
theorem step_cases (s t : State) (h : step s = .next t) :
    (∃ ins, t = { s with inputs := ins }) ∨
    (∃ ins p, s.blinkPending = some p ∧ s.rst = false ∧ t = blinkDrive p { s with inputs := ins }) ∨
    (∃ rest, s.inputs = .rst true :: rest ∧ t = assertReset { s with inputs := rest }) ∨
    (∃ rest, s.inputs = .rst false :: rest ∧ t = releaseReset { s with inputs := rest }) ∨
    (∃ w rest i, s.inputs = .cmd w :: rest ∧ s.rst = false ∧ decode w = .ok i ∧ exec i { s with inputs := rest } = .next t) ∨
    (∃ w rest e, s.inputs = .cmd w :: rest ∧ s.rst = false ∧ decode w = .error e ∧
      t = respond .illegalCmd 0 { s with inputs := rest }) := by
  unfold step takeNext at h
  split at h
  · next hin =>
    cases h
    obtain hf | ⟨p, hp, hr, hf⟩ := ended_spec s
    · exact .inl ⟨s.inputs, hf⟩
    · exact .inr (.inl ⟨s.inputs, p, hp, hr, hf⟩)
  · next e rest hin =>
    split at h
    · next hw =>
      cases h
      cases e <;> simp [waitsForBlink] at hw
      obtain ⟨hn, hf⟩ | ⟨p, hp, hf⟩ := finishBlink_spec s
      · simp [hn] at hw
      · exact .inr (.inl ⟨s.inputs, p, hp, hw.1.2, hf⟩)
    · cases e with
      | rst l =>
        cases l <;> cases h
        · exact .inr (.inr (.inr (.inl ⟨rest, hin, rfl⟩)))
        · exact .inr (.inr (.inl ⟨rest, hin, rfl⟩))
      | blinkDrive =>
        cases h
        obtain hf | ⟨p, hp, hr, hf⟩ := ended_spec { s with inputs := rest }
        · exact .inl ⟨rest, hf⟩
        · exact .inr (.inl ⟨rest, p, hp, hr, hf⟩)
      | cmd w =>
        change (if s.rst then Host.Outcome.next { s with inputs := rest } else runWord w { s with inputs := rest }) =
          .next t at h
        split at h
        · cases h
          exact .inl ⟨rest, rfl⟩
        · next hr =>
          simp only [runWord] at h
          split at h
          · next i hd => exact .inr (.inr (.inr (.inr (.inl ⟨w, rest, i, hin, by simpa using hr, hd, h⟩))))
          · next e hd =>
            cases h
            exact .inr (.inr (.inr (.inr (.inr ⟨w, rest, e, hin, by simpa using hr, hd, rfl⟩))))

end Sys2Proof.Machine
end

