-- ==== Sys2Proof/Tests/Slice0.lean ====
section
/-! SUPPORT. The model's own tests: what the well-formedness checks refuse, what the decoder reads from words written out
from their encodings, one or two steps of each command with the results of 95_test_vectors.md, and for every statement with
hypotheses a state and operands that meet them. -/

namespace Sys2Proof.Tests

open Sys2Proof Sys2Proof.Machine

/-- A machine after reset built for a variant, with the example colour and font of 95_test_vectors.md V1 and V5.3. -/
def machine (v : Variant) : State :=
  { State.reset with cfg := Config.withDefaults v ⟨0x8000, 0x8000, 0x8000⟩ (Vector.replicate 10 0x0999999) }

/-- The MULTI machine after reset. -/
def multi : State := machine .multi

/-- The SINGLE machine after reset. -/
def single : State := machine .single

/-- MULTI after EDGE A, 1000 (95_test_vectors.md V3.2, step 1). -/
def pressed : State :=
  { multi with currentDigit := 1, indicatorMode := 1, lastEventTime := 1000, pressCountA := 1, indOut := 2 }

/-- SINGLE after one press at 250 (95_test_vectors.md P4, step 5). -/
def active : State :=
  { single with currentDigit := 9, indicatorMode := 1, lastEventTime := 250, pressCountB := 1, indOut := 1 }

/-- A machine with BLINK_PREEMPTIBLE. -/
def preemptible (s : State) : State := { s with cfg := { s.cfg with blinkPreemptible := true } }

/-- A machine with FREE_RUNNING_TIMERS. -/
def freeRunning (s : State) : State := { s with cfg := { s.cfg with freeRunningTimers := true } }

/-- A machine to which a list of events is presented. -/
def given (es : List PortEvent) (s : State) : State := { s with inputs := es }

/-- MULTI between the two steps of BLINK_TICK 200 (95_test_vectors.md V4.7, step 1). -/
def sampled : State := { preemptible multi with timer0 := ⟨200, true⟩, blinkPending := some ⟨0, 1⟩ }

/-- SINGLE between the two steps of a blink in ACTIVE. -/
def sampledActive : State := { preemptible active with timer0 := ⟨450, true⟩, blinkPending := some ⟨1, 1⟩ }

/-- The next state of an outcome. -/
def nextOf : Host.Outcome State Fault Refusal → Option State
  | .next t => some t
  | .fault _ => none
  | .refused _ => none

/-! ## What the well-formedness checks refuse -/

theorem test_wf_refuses_edge_time : (AsmLine.edge .A (2 ^ 32)).wellFormed = false := by decide
theorem test_wf_refuses_blink_time : (AsmLine.blinkTick (2 ^ 32)).wellFormed = false := by decide
theorem test_wf_refuses_lookup_digit : (AsmLine.lookup 16).wellFormed = false := by decide
theorem test_wf_refuses_encode_red : (AsmLine.encode 0x10000 0 0 0 0).wellFormed = false := by decide
theorem test_wf_refuses_encode_green : (AsmLine.encode 0 0x10000 0 0 0).wellFormed = false := by decide
theorem test_wf_refuses_encode_blue : (AsmLine.encode 0 0 0x10000 0 0).wellFormed = false := by decide
theorem test_wf_refuses_encode_brightness : (AsmLine.encode 0 0 0 0x10000 0).wellFormed = false := by decide
theorem test_wf_refuses_encode_mask : (AsmLine.encode 0 0 0 0 2).wellFormed = false := by decide
theorem test_wf_refuses_tick_time : (AsmLine.tick (2 ^ 32)).wellFormed = false := by decide
theorem test_wf_refuses_zero_single_period :
    ({ single.cfg with periodSingleMs := 0 } : Config).wellFormed = false := by decide
theorem test_wf_refuses_zero_red_period : ({ multi.cfg with periodRMs := 0 } : Config).wellFormed = false := by decide
theorem test_wf_refuses_zero_green_blue_period :
    ({ multi.cfg with periodGbMs := 0 } : Config).wellFormed = false := by decide

/-! ## Decoding: words written out as OP, SUB and DATA from 30_encoding.md R76 to R80 -/

theorem test_decode_edge_a :
    decode (0b0001#4 ++ 0b0000#4 ++ 0x00000000#32 ++ 1000#32 : BitVec 72) = .ok (.edge .A 1000) := by decide
theorem test_decode_edge_b :
    decode (0b0001#4 ++ 0b0001#4 ++ 0x00000000#32 ++ 0xFFFFFFF0#32 : BitVec 72) = .ok (.edge .B 0xFFFFFFF0) := by decide
theorem test_decode_blink_tick :
    decode (0b0010#4 ++ 0b0000#4 ++ 0x00000000#32 ++ 340#32 : BitVec 72) = .ok (.blinkTick 340) := by decide
theorem test_decode_render_tick : decode (0b0011#4 ++ 0b0000#4 ++ 0#64 : BitVec 72) = .ok .renderTick := by decide
theorem test_decode_lookup : decode (0b0100#4 ++ 0b1001#4 ++ 0#64 : BitVec 72) = .ok (.lookup 9) := by decide
/-- The four colour operands differ, so a swapped pair shows (95_test_vectors.md V2.8). -/
theorem test_decode_encode :
    decode (0b0101#4 ++ 0b0001#4 ++ 0x4000#16 ++ 0x8000#16 ++ 0x2000#16 ++ 0x1000#16 : BitVec 72) =
      .ok (.encode 0x4000 0x8000 0x2000 0x1000 1) := by decide
/-- 95_test_vectors.md V6: one illegal word of each opcode that has a meaning. -/
theorem test_decode_refuses_reserved_fields :
    decode 0x120000000000000064 = .error .reservedField ∧ decode 0x210000000000000064 = .error .reservedField ∧
    decode 0x300000000000000001 = .error .reservedField ∧ decode 0x430000000000000001 = .error .reservedField ∧
    decode 0x520000000000000000 = .error .reservedField := by decide
/-- 95_test_vectors.md V6: reserved opcodes, the all-zero word first. -/
theorem test_decode_refuses_reserved_opcodes :
    decode 0 = .error .reservedOpcode ∧ decode 0xF0000000000000FFFF = .error .reservedOpcode := by decide
theorem test_decode_table_word : decodeTableWord 72 0x110000000000000096 = some (.edge .B 150) := by decide
theorem test_decode_table_word_illegal : decodeTableWord 72 0 = none := by decide
/-- 20_memory.md R58: the most significant byte first. -/
theorem test_bytes_of_edge : bytesOfCmd 0x1000000000000003E8 = [0x10, 0, 0, 0, 0, 0, 0, 0x03, 0xE8] := by decide

/-! ## The text syntax (30_encoding.md R83, R84) -/

theorem test_assemble_comment_and_hex :
    assembleText "EDGE B, 0x96 ; a comment" = .ok [0x110000000000000096] := by decide
theorem test_assemble_tick :
    assembleText "TICK 200" = .ok [0x300000000000000000, 0x2000000000000000C8] := by decide
theorem test_assemble_refuses_range : assembleText "LOOKUP 16" = .error .operandOutOfRange := by decide
theorem test_assemble_refuses_statement : assembleText "EDGE C, 1" = .error .badStatement := by decide
theorem test_assemble_refuses_character : assembleText "LOOKUP #1" = .error .badCharacter := by decide

/-! ## One step of each command (95_test_vectors.md) -/

/-- L1.3: one accepted B press from digit 0 gives 9, BLUE_ONLY, blue on alone. -/
theorem test_edge_b_wraps_the_digit :
    (nextOf (exec (.edge .B 100) multi)).map (fun t => (t.currentDigit, t.indicatorMode, t.pressCountB, t.indOut)) =
      some (9, 2, 1, 4) := by decide

/-- V3.1 step 3: an edge 49 ms after the last accepted one is spurious and answers the digit. -/
theorem test_edge_is_spurious_at_49 :
    (nextOf (exec (.edge .A 1049) pressed)).map (fun t => (t.lastEventTime, t.responses)) =
      some (1000, [0x100000001]) := by decide

/-- V4.1 step 2: in RED_ONLY a difference of exactly 200 fires timer 0 and lights R. -/
theorem test_blink_fires_at_the_period :
    (nextOf (exec (.blinkTick 200) multi)).map (fun t => (t.timer0, t.indOut, t.responses)) =
      some (⟨200, true⟩, 1, [0x000000001]) := by decide

/-- V4.3, last step: with FREE_RUNNING_TIMERS both timers fire in GREEN_ONLY and only G is driven. -/
theorem test_blink_free_running :
    (nextOf (exec (.blinkTick 400) { freeRunning pressed with timer0 := ⟨200, true⟩ })).map
      (fun t => (t.timer0, t.timer1, t.indOut, t.responses)) =
        some (⟨400, false⟩, ⟨400, true⟩, 2, [0x000000003]) := by decide

/-- V5.1 step 1 with the colour of V5.3: 25 words, the first lit, the second not. -/
theorem test_render_first_frame :
    (nextOf (exec .renderTick multi)).map (fun t => (t.pixStream.length, t.pixStream.take 2, t.responses)) =
      some (25, [0x4C4C4C00, 0], [0x000000019]) := by decide

/-- V5.4: an invalid digit is answered, pushes nothing and is not taken as displayed. -/
theorem test_render_invalid_digit :
    (nextOf (exec .renderTick { multi with currentDigit := 12 })).map
      (fun t => (t.pixStream, t.lastDisplayed.valid, t.responses)) = some ([], false, [0x200000000]) := by decide

/-- V1.2 with the example entry 0x0999999. -/
theorem test_lookup_nine :
    (nextOf (exec (.lookup 9) multi)).map (fun t => t.responses) = some [0x000999999] := by decide

/-- V1.3: the first invalid code. -/
theorem test_lookup_ten :
    (nextOf (exec (.lookup 10) multi)).map (fun t => t.responses) = some [0x200000000] := by decide

/-- V2.8: green, red, blue in that order, each truncated. -/
theorem test_encode_truncates :
    (nextOf (exec (.encode 0x4000 0x8000 0x2000 0x4000 1) multi)).map (fun t => t.responses) =
      some [0x07F3F1F00] := by decide

/-- V2.11: the largest codes clamp to 255. -/
theorem test_encode_clamps :
    (nextOf (exec (.encode 0xFFFF 0xFFFF 0xFFFF 0xFFFF 1) multi)).map (fun t => t.responses) =
      some [0x0FFFFFF00] := by decide

/-- V4.7 step 1: the sample toggles timer 0 and drives and answers nothing. -/
theorem test_sample_drives_nothing :
    (nextOf (exec (.blinkTick 200) (preemptible multi))).map
      (fun t => (t.timer0, t.indOut, t.blinkPending, t.responses)) =
        some (⟨200, true⟩, 0, some ⟨0, 1⟩, []) := by decide

/-- V6: step takes a reserved word, answers ILLEGAL_CMD and takes it off the port. -/
theorem test_step_answers_illegal :
    (nextOf (step (given [.cmd 0x600000000000000000] pressed))).map (fun t => (t.responses, t.inputs, t.currentDigit)) =
      some ([0x300000000], [], 1) := by decide

/-- 70_reset_and_hazards.md R230: asserting rst clears the digit and the outputs; a command then goes unanswered. -/
theorem test_reset_input :
    (nextOf (core.run 2 (given [.rst true, .cmd 0x300000000000000000] pressed))).map
      (fun t => (t.currentDigit, t.indOut, t.rst, t.responses)) = some (0, 0, true, []) := by decide

/-! ## Hypotheses that are met: for each statement, a state and operands that meet all of its hypotheses together -/

theorem witness_EveryDecodedWordIsItsCommandsEncoding : decode 0x518000400000008000 = .ok (.encode 0x8000 0x4000 0 0x8000 1) := by
  decide

theorem witness_DecoderAcceptsExactlyTheTableRows :
    tableRow .renderTick ∈ opcodeTable ∧ (tableRow .renderTick).holds 0x300000000000000000 = true := by decide

theorem witness_DecoderReadsEachFormatsFields : 10 ≤ (10 : Digit).toNat ∧ 10 ≤ (15 : Digit).toNat := by decide

/-- The greatest operand in range and the least out of range, for each width; and an ill-formed statement of R83. -/
theorem witness_AssemblerTakesExactlyOperandsInRange :
    (2 ^ 32 - 1 < 2 ^ 32 ∧ 15 < 2 ^ 4 ∧ 0xFFFF < 2 ^ 16 ∧ 1 < 2) ∧
    (2 ^ 32 ≤ 2 ^ 32 ∧ 2 ^ 4 ≤ 16 ∧ 2 ^ 16 ≤ 0x10000 ∧ 2 ≤ 2) ∧ (AsmLine.lookup 16).wellFormed = false := by decide

theorem witness_TickIsRenderThenBlinkWithRoomForAnEdge :
    let s := given [.cmd (encode .renderTick), .cmd (encode (.edge .A 100)), .cmd (encode (.blinkTick (BitVec.ofNat 32 200)))] multi
    200 < 2 ^ 32 ∧ s.rst = false ∧ s.blinkPending = none ∧
      s.inputs = [.cmd (encode .renderTick), .cmd (encode (.edge .A 100)), .cmd (encode (.blinkTick (BitVec.ofNat 32 200)))] := by
  decide

theorem witness_SerialisedCommandsRoundTrip :
    cmdOfBytes [0x11, 0, 0, 0, 0, 0, 0, 0, 0x96] = some 0x110000000000000096 := by decide

/-- Clause 1 with no blink under way, then with one and an EDGE; clause 2. -/
theorem witness_StepRunsTheDecodedCommand :
    (let s := given [.cmd 0x470000000000000000] multi
     s.inputs = [.cmd 0x470000000000000000] ∧ s.rst = false ∧ s.blinkPending = none ∧
       decode 0x470000000000000000 = .ok (.lookup 7)) ∧
    (let s := given [.cmd 0x1000000000000003E8] sampled
     s.inputs = [.cmd 0x1000000000000003E8] ∧ s.rst = false ∧ s.blinkPending = some ⟨0, 1⟩ ∧
       decode 0x1000000000000003E8 = .ok (.edge .A 1000)) ∧
    decodeTableWord 72 0x470000000000000000 = some (.lookup 7) := by decide

theorem witness_IllegalWordsAreAnsweredAndChangeNothing :
    let s := given [.cmd 0] pressed
    s.inputs = [.cmd 0] ∧ s.rst = false ∧ s.blinkPending = none ∧ decode 0 = .error .reservedOpcode := by decide

/-- The converse: a command that answers, a step taken at it. -/
theorem witness_IllegalWordsAreAnsweredAndChangeNothing_converse :
    let s := given [.cmd 0x4A0000000000000000] pressed
    s.inputs = [.cmd 0x4A0000000000000000] ∧ decode 0x4A0000000000000000 = .ok (.lookup 10) ∧
      (nextOf (step s)).map (fun t => t.responses) = some [0x200000000] := by decide

/-- Clause 2 with atomic blinks and a BLINK_TICK. -/
theorem witness_EveryStepCompletesWithOneResponsePerCommand_atomic :
    let s := given [.cmd 0x2000000000000000C8] multi
    s.inputs = [.cmd 0x2000000000000000C8] ∧ s.rst = false ∧ s.blinkPending = none ∧ s.cfg.blinkPreemptible = false := by
  decide

/-- Clause 2 with preemptible blinks and a word that is no BLINK_TICK. -/
theorem witness_EveryStepCompletesWithOneResponsePerCommand_other :
    let s := given [.cmd 0x300000000000000000] (preemptible multi)
    s.inputs = [.cmd 0x300000000000000000] ∧ s.rst = false ∧ s.blinkPending = none ∧
      (∀ now, decode 0x300000000000000000 ≠ .ok (.blinkTick now)) := by
  refine ⟨rfl, rfl, rfl, fun now h => ?_⟩
  have hd : decode 0x300000000000000000 = .ok .renderTick := by decide
  rw [hd] at h
  cases h

/-- Clause 2 with an EDGE while a blink is under way. -/
theorem witness_EveryStepCompletesWithOneResponsePerCommand_edge :
    let s := given [.cmd 0x1000000000000000FA] sampled
    s.inputs = [.cmd 0x1000000000000000FA] ∧ s.rst = false ∧ decode 0x1000000000000000FA = .ok (.edge .A 250) ∧
      (∀ now, decode 0x1000000000000000FA ≠ .ok (.blinkTick now)) := by
  have hd : decode 0x1000000000000000FA = .ok (.edge .A 250) := by decide
  refine ⟨rfl, rfl, hd, fun now h => ?_⟩
  rw [hd] at h
  cases h

/-- Clauses 3 and 4. -/
theorem witness_EveryStepCompletesWithOneResponsePerCommand_preempted :
    (preemptible multi).cfg.blinkPreemptible = true ∧
    sampled.inputs = [] ∧ sampled.rst = false ∧ sampled.blinkPending = some ⟨0, 1⟩ := by decide

/-- Each clause of the reset statement; the last with a command taken while rst is asserted. -/
theorem witness_ResetInputResetsAndTakesNoCommand :
    (given [.rst true] pressed).inputs = [.rst true] ∧
    (let s := given [.cmd 0x300000000000000000] { multi with rst := true }
     s.inputs = [.cmd 0x300000000000000000] ∧ s.rst = true) ∧
    (given [.rst false] { multi with rst := true }).inputs = [.rst false] ∧
    (nextOf (exec .renderTick { multi with rst := true })).map (fun t => t.rst) = some true := by decide

theorem witness_IdleBlockHoldsItsState : pressed.inputs = [] ∧ pressed.blinkPending = none := by decide

theorem witness_PortsShowExactlyTheSharedState : active.cfg.variant = .single ∧ pressed.cfg.variant = .multi := by decide

/-- The two ranges at the values where they meet. -/
theorem witness_FontReadIsDefinedOnDecimalDigits : (9 : Digit).toNat < 10 ∧ 10 ≤ (10 : Digit).toNat := by decide

/-- The two ranges at their ends. -/
theorem witness_LookupAnswersThePattern :
    (0 : Digit).toNat < 10 ∧ (9 : Digit).toNat < 10 ∧ 10 ≤ (10 : Digit).toNat ∧ 10 ≤ (15 : Digit).toNat := by decide

/-- The last edge inside the window. -/
theorem witness_EdgeInsideTheWindowIsDropped :
    ((1049 : Millis).toNat + 2 ^ 32 - pressed.lastEventTime.toNat) % 2 ^ 32 < pressed.cfg.debounceWindowMs.toNat := by decide

/-- The first edge outside the window, in both variants. -/
theorem witness_AcceptedEdgeAppliesThePress :
    pressed.cfg.debounceWindowMs.toNat ≤ ((1050 : Millis) - pressed.lastEventTime).toNat ∧
    active.cfg.debounceWindowMs.toNat ≤ ((300 : Millis) - active.lastEventTime).toNat := by decide

theorem witness_PressedDigitIsDecimal :
    multi.cfg.debounceWindowMs.toNat ≤ ((50 : Millis) - multi.lastEventTime).toNat := by decide

/-- Each variant, with the next toggle due at exactly its period. -/
theorem witness_PostPressDriveLeavesTheBlinkState :
    (active.cfg.debounceWindowMs.toNat ≤ ((300 : Millis) - active.lastEventTime).toNat ∧ active.cfg.variant = .single ∧
      active.cfg.blinkPreemptible = false ∧
      active.cfg.periodSingleMs.toNat ≤ ((200 : Millis) - active.timer0.lastToggle).toNat) ∧
    (pressed.cfg.debounceWindowMs.toNat ≤ ((1050 : Millis) - pressed.lastEventTime).toNat ∧ pressed.cfg.variant = .multi ∧
      pressed.cfg.blinkPreemptible = false ∧
      pressed.cfg.periodGbMs.toNat ≤ ((333 : Millis) - pressed.timer1.lastToggle).toNat) := by decide

theorem witness_DebounceGateIsGlobal :
    multi.cfg.debounceWindowMs.toNat ≤ ((100 : Millis) - multi.lastEventTime).toNat ∧
      ((149 : Millis) - 100).toNat < multi.cfg.debounceWindowMs.toNat := by decide

theorem witness_RejectedEdgeDoesNotMoveTheWindow :
    multi.cfg.debounceWindowMs.toNat ≤ ((1000 : Millis) - multi.lastEventTime).toNat ∧
      ((1030 : Millis) - 1000).toNat < multi.cfg.debounceWindowMs.toNat := by decide

theorem witness_DebounceDifferenceWraps :
    let s := { multi with lastEventTime := 0xFFFFFFF0 }
    s.cfg.debounceWindowMs = 50 ∧ s.lastEventTime = 0xFFFFFFF0 := by decide

/-- The two ends of the range of k. -/
theorem witness_BackwardEdgeIsAccepted :
    (0 < 1 ∧ 1 ≤ 2 ^ 32 - pressed.cfg.debounceWindowMs.toNat ∧ 1 < 2 ^ 32) ∧
    (0 < 2 ^ 32 - 50 ∧ 2 ^ 32 - 50 ≤ 2 ^ 32 - pressed.cfg.debounceWindowMs.toNat ∧ 2 ^ 32 - 50 < 2 ^ 32) := by decide

theorem witness_FirstWindowAfterResetIsClosed : (0 : Millis).toNat < 50 ∧ (49 : Millis).toNat < 50 := by decide

theorem witness_FirstOfTwoSimultaneousEdgesWins :
    multi.cfg.debounceWindowMs.toNat ≤ ((100 : Millis) - multi.lastEventTime).toNat ∧
      0 < multi.cfg.debounceWindowMs.toNat := by decide

theorem witness_AtomicBlinkTogglesDueTimers :
    (multi.cfg.variant = .multi ∧ multi.cfg.blinkPreemptible = false ∧ multi.cfg.freeRunningTimers = false) ∧
    (active.cfg.variant = .single ∧ active.cfg.blinkPreemptible = false ∧ active.cfg.freeRunningTimers = false) := by decide

theorem witness_SameTimeBlinkFiresOnce : multi.cfg.wellFormed = true ∧ multi.cfg.blinkPreemptible = false := by decide

/-- The three clauses; in the last, each disjunct of the two frozen timers' premises. -/
theorem witness_FreeRunningTimersToggleInTheBackground :
    ((freeRunning pressed).cfg.variant = .multi ∧ (freeRunning pressed).cfg.blinkPreemptible = false ∧
      (freeRunning pressed).cfg.freeRunningTimers = true) ∧
    ((freeRunning single).cfg.variant = .single ∧ (freeRunning single).cfg.blinkPreemptible = false ∧
      (freeRunning single).cfg.freeRunningTimers = true) ∧
    (pressed.cfg.freeRunningTimers = false ∧ pressed.cfg.variant = .multi ∧ pressed.indicatorMode ≠ 0) ∧
    (single.cfg.freeRunningTimers = false ∧ single.cfg.variant = .single ∧ single.indicatorMode ≠ 1) ∧
    (multi.cfg.freeRunningTimers = false ∧ multi.cfg.variant = .multi ∧ multi.indicatorMode ≠ 1 ∧
      multi.indicatorMode ≠ 2) := by decide

/-- The two ends of the range of j, for timer 0 of MULTI. -/
theorem witness_BackwardBlinkFires :
    (.t0 ∈ variantTimers multi.cfg.variant ∧ usesTimer multi.cfg.variant .t0 multi.indicatorMode = true ∧
      multi.cfg.blinkPreemptible = false) ∧
    (0 < 1 ∧ 1 ≤ 2 ^ 32 - (period multi.cfg .t0).toNat ∧ 1 < 2 ^ 32) ∧
    (0 < 2 ^ 32 - 200 ∧ 2 ^ 32 - 200 ≤ 2 ^ 32 - (period multi.cfg .t0).toNat ∧ 2 ^ 32 - 200 < 2 ^ 32) := by decide

theorem witness_PreemptibleBlinkSamplesWithoutDriving : (preemptible multi).cfg.blinkPreemptible = true := by decide

/-- Each variant, with a timer pending. -/
theorem witness_PreemptedBlinkDrivesEitherChannelSet :
    (sampled.rst = false ∧ sampled.blinkPending = some ⟨0, 1⟩ ∧ sampled.inputs = [] ∧ sampled.cfg.variant = .multi) ∧
    (sampledActive.rst = false ∧ sampledActive.blinkPending = some ⟨1, 1⟩ ∧ sampledActive.inputs = [] ∧
      sampledActive.cfg.variant = .single) := by decide

/-- Clause 1: an EDGE presented while a blink is under way. -/
theorem witness_OnlyEdgesPreemptABlink_edge :
    let s := given [.cmd 0x1000000000000000FA] sampled
    s.blinkPending = some ⟨0, 1⟩ ∧ s.rst = false ∧ s.inputs = [.cmd 0x1000000000000000FA] ∧
      decode 0x1000000000000000FA = .ok (.edge .A 250) := by decide

/-- Clause 2: an ILLEGAL word and a RENDER_TICK presented while a blink is under way. -/
theorem witness_OnlyEdgesPreemptABlink_other :
    (let s := given [.cmd 0x300000000000000000] sampled
     s.blinkPending = some ⟨0, 1⟩ ∧ s.rst = false ∧ s.inputs = [.cmd 0x300000000000000000]) ∧
    (∀ b ts, decode 0x300000000000000000 ≠ .ok (.edge b ts)) ∧ (∀ b ts, decode 0 ≠ .ok (.edge b ts)) := by
  have hr : decode 0x300000000000000000 = .ok .renderTick := by decide
  have hz : decode 0 = .error .reservedOpcode := by decide
  refine ⟨⟨rfl, rfl, rfl⟩, fun b ts h => ?_, fun b ts h => ?_⟩
  · rw [hr] at h
    cases h
  · rw [hz] at h
    cases h

theorem witness_StaleBlinkDriveMayLightTwoChannels :
    let s := given [.cmd (encode (.blinkTick 200)), .cmd (encode (.edge .A 250)), .blinkDrive] (preemptible multi)
    s.cfg.variant = .multi ∧ s.cfg.blinkPreemptible = true ∧ s.cfg.freeRunningTimers = false ∧ s.rst = false ∧
      s.blinkPending = none ∧ s.indicatorMode = 0 ∧ s.timer0.phase = false ∧
      s.cfg.periodRMs.toNat ≤ ((200 : Millis) - s.timer0.lastToggle).toNat ∧
      s.cfg.debounceWindowMs.toNat ≤ ((250 : Millis) - s.lastEventTime).toNat ∧
      s.inputs = [.cmd (encode (.blinkTick 200)), .cmd (encode (.edge .A 250)), .blinkDrive] := by decide

/-- The two ends of the range of j. -/
theorem witness_GreenBlueTimerDriftsToTheHostTick :
    pressed.cfg.variant = .multi ∧ pressed.cfg.blinkPreemptible = false ∧ pressed.indicatorMode = 1 ∧
      pressed.cfg.periodGbMs = 333 ∧ 1 ≤ 1 ∧ 1 ≤ 34 ∧ 34 ≤ 34 := by decide

/-- None displayed, and another digit displayed. -/
theorem witness_ChangedDigitPushesItsFrame :
    ((9 : Digit).toNat < 10 ∧ active.currentDigit = 9 ∧ active.lastDisplayed.valid = false) ∧
    (let s := { pressed with lastDisplayed := ⟨true, 0⟩ }
     s.currentDigit.toNat < 10 ∧ s.lastDisplayed.digit ≠ s.currentDigit) := by decide

/-- The least invalid digit, with the digit field of None equal to it too. -/
theorem witness_InvalidDigitIsSkipped :
    let s := { multi with currentDigit := 10, lastDisplayed := ⟨false, 10⟩ }
    9 < s.currentDigit.toNat ∧ s.lastDisplayed ≠ ⟨true, s.currentDigit⟩ := by decide

/-- Clause 2 on a list of commands with a rejected EDGE and two renders. -/
theorem witness_RendersWithoutAnAcceptedEdgePushOneFrame :
    (let s := { pressed with lastDisplayed := ⟨true, 1⟩ }
     s.lastDisplayed = ⟨true, s.currentDigit⟩) ∧
    acceptedCount .A [.renderTick, .edge .A 1010, .renderTick] pressed = 0 ∧
    acceptedCount .B [.renderTick, .edge .A 1010, .renderTick] pressed = 0 := by decide

/-- Two machines whose fonts differ at element 1 and agree at element 0. -/
theorem witness_FrameLanesAreIndependent :
    let s := pressed
    let s' := { pressed with cfg := { pressed.cfg with font := Vector.replicate 10 0x0999998 } }
    let k := 1
    1 < 10 ∧ k < 25 ∧ s.currentDigit = BitVec.ofNat 4 1 ∧ s'.currentDigit = BitVec.ofNat 4 1 ∧
      s.lastDisplayed.valid = false ∧ s'.lastDisplayed.valid = false ∧ s.pixStream = [] ∧ s'.pixStream = [] ∧
      s.cfg.fixedColor = s'.cfg.fixedColor ∧ s.cfg.renderBrightness = s'.cfg.renderBrightness ∧
      (s.cfg.font[1]).getLsbD k = (s'.cfg.font[1]).getLsbD k ∧ s.cfg.font[1] ≠ s'.cfg.font[1] := by decide

/-- A good state of MULTI with an EDGE presented, and the step it takes. -/
theorem witness_EveryStepKeepsGoodStates_multi :
    let s := given [.cmd 0x110000000000000FA0] pressed
    Good s ∧ ∃ t, step s = .next t ∧ t.indOut = 4 := by
  refine ⟨⟨by decide, by decide, fun h => (by cases h), fun h => (by cases h), fun _ => (by decide), fun _ => rfl,
    fun _ h => (by cases h), fun h => (by cases h)⟩, _, rfl, by decide⟩

/-- A good state of SINGLE between the two steps of a blink, and the step it takes. -/
theorem witness_EveryStepKeepsGoodStates_single : Good sampledActive ∧ ∃ t, step sampledActive = .next t := by
  refine ⟨⟨by decide, by decide, fun h => (by cases h), fun _ => (by decide), fun _ => (by decide), fun h => (by cases h),
    fun _ _ _ _ => rfl, fun _ => rfl⟩, _, rfl⟩

/-- A stream of one frame, and a render that adds to it. -/
theorem witness_EveryStepKeepsTheStreamOfFrames :
    let s := { given [.cmd 0x300000000000000000] pressed with pixStream := List.replicate 25 0x4C4C4C00 }
    GoodStream s ∧ ∃ t, step s = .next t := by
  refine ⟨⟨by decide, fun w hw => .inl ?_⟩, _, rfl⟩
  rw [List.eq_of_mem_replicate hw]
  decide

/-- A state whose one response is SPURIOUS_EDGE, and the step it takes. -/
theorem witness_EveryStepKeepsNamedStatuses :
    let s := { given [.cmd 0] pressed with responses := [0x100000001] }
    GoodResponses s ∧ ∃ t, step s = .next t := by
  refine ⟨fun r hr => ?_, _, rfl⟩
  rw [List.mem_singleton.mp hr]
  decide

theorem witness_AtMostOneChannelIsOn :
    Good pressed ∧ pressed.cfg.variant = .multi ∧ pressed.cfg.blinkPreemptible = false ∧
      pressed.cfg.debounceWindowMs.toNat ≤ ((1050 : Millis) - pressed.lastEventTime).toNat := by
  refine ⟨⟨by decide, by decide, fun h => (by cases h), fun h => (by cases h), fun _ => (by decide), fun _ => rfl,
    fun _ h => (by cases h), fun h => (by cases h)⟩, by decide⟩

/-- A step that appends a frame. -/
theorem witness_PixelStreamGrowsByWholeFrames :
    (nextOf (step (given [.cmd 0x300000000000000000] pressed))).map (fun t => t.pixStream.length) = some 25 := by decide

/-- A step that reads the font: the render of a digit. -/
theorem witness_NoStepWritesTheFontRom :
    (nextOf (step (given [.cmd 0x300000000000000000] pressed))).map (fun t => t.cfg.font[1]) = some 0x0999999 := by decide

/-- A command of each kind the frame's premises name: a rejected EDGE, an EDGE of the other button, no RENDER_TICK and no
BLINK_TICK. -/
theorem witness_EachFieldHasItsWriters :
    (acceptedOn .A (.edge .A 1010) pressed = false ∧ acceptedOn .B (.edge .A 1010) pressed = false) ∧
    acceptedOn .A (.edge .B 1050) pressed = false ∧ acceptedOn .B (.edge .A 1050) pressed = false ∧
    Instr.lookup 3 ≠ .renderTick := by decide

theorem witness_EachFieldHasItsWriters_no_blink : ∀ now, Instr.lookup 3 ≠ .blinkTick now := by
  intro now h
  cases h

/-- Three presses of which two are accepted. -/
theorem witness_AcceptedPressesAreAWindowApart :
    NondecreasingFrom pressed.lastEventTime (edgeTimes [.edge .A 1050, .edge .B 1060, .edge .B 1100]) ∧
    acceptedCount .A [.edge .A 1050, .edge .B 1060, .edge .B 1100] pressed = 1 ∧
    acceptedCount .B [.edge .A 1050, .edge .B 1060, .edge .B 1100] pressed = 1 := by
  refine ⟨?_, by decide, by decide⟩
  unfold NondecreasingFrom edgeTimes edgeTimes edgeTimes
  decide

end Sys2Proof.Tests
end

section
/-! What the observation ports and the indicator pins show (10_state.md R27, R29). -/

namespace Sys2Proof.Machine

@[simp] theorem obsDigit_eq_currentDigit (s : State) : obsDigit s = s.currentDigit := rfl
@[simp] theorem obsMode_eq_indicatorMode (s : State) : obsMode s = s.indicatorMode := rfl
@[simp] theorem obsLastEvent_eq_lastEventTime (s : State) : obsLastEvent s = s.lastEventTime := rfl
@[simp] theorem obsCountA_eq_pressCountA (s : State) : obsCountA s = s.pressCountA := rfl
@[simp] theorem obsCountB_eq_pressCountB (s : State) : obsCountB s = s.pressCountB := rfl

/-- SINGLE has the one output LED, at bit 0 (10_state.md R27). -/
theorem and_outputBits_single (out : BitVec 3) :
    out &&& outputBits .single = if out.getLsbD 0 then 1 else 0 := by
  calc out &&& outputBits .single
      = BitVec.setWidth 3 (BitVec.ofBool (out.getLsbD 0)) := BitVec.and_one_eq_setWidth_ofBool_getLsbD
    _ = if out.getLsbD 0 then 1 else 0 := by cases out.getLsbD 0 <;> rfl

/-- MULTI hardwires no bit (10_state.md R27). -/
theorem and_outputBits_multi (out : BitVec 3) : out &&& outputBits .multi = out :=
  BitVec.and_allOnes

theorem indPins_of_single {s : State} (hv : s.cfg.variant = .single) :
    indPins s = if s.indOut.getLsbD 0 then 1 else 0 := by
  rw [indPins, hv, and_outputBits_single]

theorem indPins_of_multi {s : State} (hv : s.cfg.variant = .multi) : indPins s = s.indOut := by
  rw [indPins, hv, and_outputBits_multi]

/-- Settles O15: each port is its field, so an update of the fields no port shows changes no port; the pins are split by
the variant's output bits. -/
theorem portsShowExactlyTheSharedState : Obligations.PortsShowExactlyTheSharedState := by
  unfold Obligations.PortsShowExactlyTheSharedState
  refine ⟨fun s => ?shown, fun s ld t0 t1 px => ?hidden, fun s => indPins_of_single, fun s => indPins_of_multi⟩
  case shown =>
    exact ⟨obsDigit_eq_currentDigit s, obsMode_eq_indicatorMode s, obsLastEvent_eq_lastEventTime s,
      obsCountA_eq_pressCountA s, obsCountB_eq_pressCountB s⟩
  case hidden =>
    simp only [obsDigit_eq_currentDigit, obsMode_eq_indicatorMode, obsLastEvent_eq_lastEventTime,
      obsCountA_eq_pressCountA, obsCountB_eq_pressCountB, and_self]

end Sys2Proof.Machine
end

section
/-! Which operations touch the font ROM and the pixel stream (20_memory.md R51, R52, R54): none writes the parameters, and
RENDER_TICK alone pushes, a whole frame at a time. -/

namespace Sys2Proof.Machine

variable (s : State)

@[simp] theorem edgeEvent_cfg (b : Button) (ts : Millis) : (edgeEvent b ts s).cfg = s.cfg := by
  obtain ⟨-, h⟩ | ⟨-, h⟩ := edgeEvent_spec b ts s <;> simp [h]

@[simp] theorem edgeEvent_pixStream (b : Button) (ts : Millis) : (edgeEvent b ts s).pixStream = s.pixStream := by
  obtain ⟨-, h⟩ | ⟨-, h⟩ := edgeEvent_spec b ts s <;> simp [h]

@[simp] theorem blinkTick_cfg (now : Millis) : (blinkTick now s).cfg = s.cfg := by
  obtain ⟨-, _, _, _, _, h⟩ | ⟨-, _, _, _, -, h⟩ := blinkTick_frame now s <;> simp [h]

@[simp] theorem blinkTick_pixStream (now : Millis) : (blinkTick now s).pixStream = s.pixStream := by
  obtain ⟨-, _, _, _, _, h⟩ | ⟨-, _, _, _, -, h⟩ := blinkTick_frame now s <;> simp [h]

@[simp] theorem blinkDrive_cfg (p : BlinkPending) : (blinkDrive p s).cfg = s.cfg := by
  obtain ⟨_, h⟩ := blinkDrive_frame p s
  simp [h]

@[simp] theorem blinkDrive_pixStream (p : BlinkPending) : (blinkDrive p s).pixStream = s.pixStream := by
  obtain ⟨_, h⟩ := blinkDrive_frame p s
  simp [h]

@[simp] theorem lookupDigit_cfg (d : Digit) : (lookupDigit d s).cfg = s.cfg := by
  obtain ⟨_, _, h, -⟩ := lookupDigit_spec d s
  simp [h]

@[simp] theorem lookupDigit_pixStream (d : Digit) : (lookupDigit d s).pixStream = s.pixStream := by
  obtain ⟨_, _, h, -⟩ := lookupDigit_spec d s
  simp [h]

@[simp] theorem renderDigit_cfg (d : Digit) : (renderDigit d s).cfg = s.cfg := by
  obtain ⟨-, h⟩ | ⟨-, -, h⟩ | ⟨-, _, -, h⟩ := renderDigit_spec d s <;> simp [h]

/-- A render pushes nothing, or the frame of the digit's font entry. -/
theorem renderDigit_pixStream (d : Digit) :
    (renderDigit d s).pixStream = s.pixStream ∨
    ∃ pat, fontRead s.cfg d = some pat ∧ (renderDigit d s).pixStream = s.pixStream ++ frame s.cfg pat := by
  obtain ⟨-, h⟩ | ⟨-, -, h⟩ | ⟨-, pat, hpat, h⟩ := renderDigit_spec d s
  · exact .inl (by simp [h])
  · exact .inl (by simp [h])
  · exact .inr ⟨pat, hpat, by simp [h]⟩

variable {s} {t : State}

/-- No command writes a parameter (10_state.md R32). -/
theorem exec_cfg {i : Instr} (h : exec i s = .next t) : t.cfg = s.cfg := by
  obtain ⟨b, ts, -, rfl⟩ | ⟨now, -, rfl⟩ | ⟨-, rfl⟩ | ⟨d, -, rfl⟩ | ⟨r, g, b, br, m, -, rfl⟩ := exec_next_cases i s t h
  · exact edgeEvent_cfg s b ts
  · exact blinkTick_cfg s now
  · exact renderDigit_cfg s s.currentDigit
  · exact lookupDigit_cfg s d
  · exact respond_cfg s .ok _

/-- A command leaves the stream alone, or is a RENDER_TICK that pushes the frame of the current digit. -/
theorem exec_pixStream {i : Instr} (h : exec i s = .next t) :
    t.pixStream = s.pixStream ∨
    i = .renderTick ∧ ∃ pat, fontRead s.cfg s.currentDigit = some pat ∧ t.pixStream = s.pixStream ++ frame s.cfg pat := by
  obtain ⟨b, ts, -, rfl⟩ | ⟨now, -, rfl⟩ | ⟨hi, rfl⟩ | ⟨d, -, rfl⟩ | ⟨r, g, b, br, m, -, rfl⟩ := exec_next_cases i s t h
  · exact .inl (edgeEvent_pixStream s b ts)
  · exact .inl (blinkTick_pixStream s now)
  · exact (renderDigit_pixStream s s.currentDigit).imp_right fun hframe => ⟨hi, hframe⟩
  · exact .inl (lookupDigit_pixStream s d)
  · exact .inl (respond_pixStream s .ok _)

/-- No step writes a parameter, an assertion of rst among them (10_state.md R32, R33). -/
theorem step_cfg (h : step s = .next t) : t.cfg = s.cfg := by
  obtain ⟨ins, rfl⟩ | ⟨ins, p, -, -, rfl⟩ | ⟨rest, -, rfl⟩ | ⟨rest, -, rfl⟩ | ⟨w, rest, i, -, -, -, hexec⟩ |
    ⟨w, rest, e, -, -, -, rfl⟩ := step_cases s t h
  · rfl
  · exact blinkDrive_cfg _ p
  · exact assertReset_cfg _
  · exact releaseReset_cfg _
  · exact exec_cfg (s := { s with inputs := rest }) hexec
  · exact respond_cfg _ .illegalCmd 0

/-- A step leaves the stream alone, or takes a RENDER_TICK that pushes the frame of the current digit. -/
theorem step_pixStream (h : step s = .next t) :
    t.pixStream = s.pixStream ∨
    ∃ w rest pat, s.inputs = .cmd w :: rest ∧ decode w = .ok .renderTick ∧ fontRead s.cfg s.currentDigit = some pat ∧
      t.pixStream = s.pixStream ++ frame s.cfg pat := by
  obtain ⟨ins, rfl⟩ | ⟨ins, p, -, -, rfl⟩ | ⟨rest, -, rfl⟩ | ⟨rest, -, rfl⟩ | ⟨w, rest, i, hin, -, hdec, hexec⟩ |
    ⟨w, rest, e, -, -, -, rfl⟩ := step_cases s t h
  · exact .inl rfl
  · exact .inl (blinkDrive_pixStream _ p)
  · exact .inl (assertReset_pixStream _)
  · exact .inl (releaseReset_pixStream _)
  · obtain hsame | ⟨rfl, pat, hpat, hpush⟩ := exec_pixStream hexec
    · exact .inl hsame
    · exact .inr ⟨w, rest, pat, hin, hdec, hpat, hpush⟩
  · exact .inl (respond_pixStream _ .illegalCmd 0)

/-- A masked-off pixel is dark whatever its colour (41_pixel_encoder.md R114). -/
@[simp] theorem enc_mask_zero (r g b br : UQ15) : enc r g b br 0 = 0 := by
  have hcomp (c : UQ15) : comp br c 0 = 0 := by simp [comp]
  simp only [enc, hcomp]
  rfl

/-- A frame's word i is the lit word or 0, by pattern element i (44_render_driver.md R162). -/
theorem frameWord_eq_litWord (c : Config) (pat : Pattern) (i : Nat) : frameWord c pat i = litWord c pat i := by
  rw [frameWord, litWord, BitVec.getLsbD_eq_extractLsb']
  obtain hmask | hmask := BitVec.eq_zero_or_eq_one (pat.extractLsb' i 1) <;> rw [hmask]
  · exact enc_mask_zero _ _ _ _
  · rfl

theorem frame_eq_map_litWord (c : Config) (pat : Pattern) : frame c pat = (List.range 25).map (litWord c pat) :=
  List.map_congr_left fun i _ => frameWord_eq_litWord c pat i

/-- Settles O50: of all a step can do, only a RENDER_TICK reaches the stream, and what it pushes is a frame. -/
theorem pixelStreamGrowsByWholeFrames : Obligations.PixelStreamGrowsByWholeFrames := by
  unfold Obligations.PixelStreamGrowsByWholeFrames
  refine ⟨rfl, fun s t h => ?_⟩
  simpa only [frame_eq_map_litWord] using step_pixStream h

/-- Settles O51: a font read is a function of the parameters, which no step writes. -/
theorem noStepWritesTheFontRom : Obligations.NoStepWritesTheFontRom := by
  intro s t h
  have hcfg : t.cfg = s.cfg := step_cfg h
  exact ⟨hcfg, fun d => by rw [hcfg]⟩

/-- Settles O16, by the two cases of a font read: an entry below 10, none from 10 on. -/
theorem fontReadIsDefinedOnDecimalDigits : Obligations.FontReadIsDefinedOnDecimalDigits :=
  fun c d => ⟨fontRead_of_lt c d, (fontRead_eq_none_iff c d).2⟩

end Sys2Proof.Machine
end

section
/-! The decoder, format by format (30_encoding.md R73, R76 to R80): what it answers at each opcode, which word each command
decodes from, and the same words as spec/opcode_table.json gives them, by mask and match. -/

namespace Sys2Proof

@[simp] theorem whenZero_eq_ok_iff {ok : Bool} {i j : Instr} : whenZero ok i = .ok j ↔ ok = true ∧ j = i := by
  cases ok <;> simp [whenZero, eq_comm]

/-- OP of a command's word (30_encoding.md R75). -/
def opcodeOf : Instr → BitVec 4
  | .edge _ _ => 1
  | .blinkTick _ => 2
  | .renderTick => 3
  | .lookup _ => 4
  | .encode _ _ _ _ _ => 5

/-! What the decoder answers at each opcode. -/

section
variable {w : Cmd}

theorem decode_of_op_edge (hop : cmdOp w = 1) :
    decode w = whenZero ((cmdSub w).extractLsb' 1 3 = 0 && (cmdData w).extractLsb' 32 32 = 0)
      (.edge (buttonOfBit ((cmdSub w).extractLsb' 0 1)) ((cmdData w).extractLsb' 0 32)) := by
  simp only [decode, hop]
  rfl

theorem decode_of_op_blinkTick (hop : cmdOp w = 2) :
    decode w = whenZero (cmdSub w = 0 && (cmdData w).extractLsb' 32 32 = 0)
      (.blinkTick ((cmdData w).extractLsb' 0 32)) := by
  simp only [decode, hop]
  rfl

theorem decode_of_op_renderTick (hop : cmdOp w = 3) :
    decode w = whenZero (cmdSub w = 0 && cmdData w = 0) .renderTick := by
  simp only [decode, hop]
  rfl

theorem decode_of_op_lookup (hop : cmdOp w = 4) : decode w = whenZero (cmdData w = 0) (.lookup (cmdSub w)) := by
  simp only [decode, hop]
  rfl

theorem decode_of_op_encode (hop : cmdOp w = 5) :
    decode w = whenZero ((cmdSub w).extractLsb' 1 3 = 0)
      (.encode ((cmdData w).extractLsb' 48 16) ((cmdData w).extractLsb' 32 16) ((cmdData w).extractLsb' 16 16)
        ((cmdData w).extractLsb' 0 16) ((cmdSub w).extractLsb' 0 1)) := by
  simp only [decode, hop]
  rfl

/-- A word decodes to a command of its own opcode. -/
theorem cmdOp_of_decode {i : Instr} (h : decode w = .ok i) : cmdOp w = opcodeOf i := by
  unfold decode at h
  split at h
  case h_6 => cases h
  all_goals
    rename_i hnat
    obtain ⟨-, rfl⟩ := whenZero_eq_ok_iff.1 h
    exact BitVec.eq_of_toNat_eq hnat

theorem decode_eq_ok_iff {i : Instr} : decode w = .ok i ↔ cmdOp w = opcodeOf i ∧ decode w = .ok i :=
  (and_iff_right_of_imp cmdOp_of_decode).symm

end

/-! The decoder undoes the encoder. -/

theorem buttonOfBit_bitOfButton (b : Button) : buttonOfBit (bitOfButton b) = b := by cases b <;> rfl

/-- Every command decodes from its word: its must-be-0 fields are 0, and its operands stand where the decoder reads them. -/
theorem decode_encode (i : Instr) : decode (encode i) = .ok i := by
  cases i with
  | edge b ts =>
    rw [encode, decode_of_op_edge (cmdOp_mkCmd _ _ _), cmdSub_mkCmd, cmdData_mkCmd]
    simp only [BitVec.extractLsb'_append_eq_left, BitVec.extractLsb'_append_eq_right, buttonOfBit_bitOfButton]
    rfl
  | blinkTick now =>
    rw [encode, decode_of_op_blinkTick (cmdOp_mkCmd _ _ _), cmdSub_mkCmd, cmdData_mkCmd]
    simp only [BitVec.extractLsb'_append_eq_left, BitVec.extractLsb'_append_eq_right]
    rfl
  | renderTick => rfl
  | lookup d =>
    rw [encode, decode_of_op_lookup (cmdOp_mkCmd _ _ _), cmdSub_mkCmd, cmdData_mkCmd]
    rfl
  | encode r g b br m =>
    rw [encode, decode_of_op_encode (cmdOp_mkCmd _ _ _), cmdSub_mkCmd, cmdData_mkCmd]
    have hr : (r ++ g ++ b ++ br).extractLsb' 48 16 = r := by
      rw [BitVec.extractLsb'_append_eq_of_le (by decide), BitVec.extractLsb'_append_eq_of_le (by decide)]
      exact BitVec.extractLsb'_append_eq_left
    have hg : (r ++ g ++ b ++ br).extractLsb' 32 16 = g := by
      rw [BitVec.extractLsb'_append_eq_of_le (by decide), BitVec.extractLsb'_append_eq_of_le (by decide)]
      exact BitVec.extractLsb'_append_eq_right
    have hb : (r ++ g ++ b ++ br).extractLsb' 16 16 = b := by
      rw [BitVec.extractLsb'_append_eq_of_le (by decide)]
      exact BitVec.extractLsb'_append_eq_right
    rw [hr, hg, hb]
    simp only [BitVec.extractLsb'_append_eq_left, BitVec.extractLsb'_append_eq_right]
    rfl

/-! Masks and matches. -/

/-- A field of a field is a field of the word. -/
theorem extractLsb'_extractLsb' {n : Nat} (x : BitVec n) {start len start' len' : Nat} (h : start + len ≤ len') :
    (x.extractLsb' start' len').extractLsb' start len = x.extractLsb' (start' + start) len := by
  apply BitVec.eq_of_getLsbD_eq
  intro i hi
  simp only [BitVec.getLsbD_extractLsb', hi, show start + i < len' by omega, decide_true, Bool.true_and, Nat.add_assoc]

/-- Masking with the upper bits set leaves 0 exactly where the upper field is 0. -/
theorem and_upperMask_eq_zero_iff {m n : Nat} (x : BitVec (m + n)) :
    x &&& (BitVec.allOnes m ++ 0#n) = 0 ↔ x.extractLsb' n m = 0 := by
  have hmasked : x &&& (BitVec.allOnes m ++ 0#n) = x.extractLsb' n m ++ 0#n := by
    conv_lhs => rw [← BitVec.extractLsb'_append_extractLsb' (x := x)]
    rw [BitVec.and_append, BitVec.and_allOnes, BitVec.and_zero]
  have hzero : (0 : BitVec (m + n)) = 0#m ++ 0#n := BitVec.zero_append_zero.symm
  rw [hmasked, hzero]
  exact BitVec.append_left_inj 0#n

theorem mkCmd_inj {op op' sub sub' : BitVec 4} {data data' : BitVec 64} :
    mkCmd op sub data = mkCmd op' sub' data' ↔ op = op' ∧ sub = sub' ∧ data = data' := by
  refine ⟨fun h => ⟨?_, ?_, ?_⟩, fun ⟨hop, hsub, hdata⟩ => by rw [hop, hsub, hdata]⟩
  · simpa only [cmdOp_mkCmd] using congrArg cmdOp h
  · simpa only [cmdSub_mkCmd] using congrArg cmdSub h
  · simpa only [cmdData_mkCmd] using congrArg cmdData h

/-- A mask that covers OP and a match with nothing but OP: the word has that OP, and 0 under the rest of the mask. -/
theorem and_mkCmd_eq_iff (w : Cmd) (op subMask : BitVec 4) (dataMask : BitVec 64) :
    w &&& mkCmd 0xF subMask dataMask = mkCmd op 0 0 ↔
      cmdOp w = op ∧ cmdSub w &&& subMask = 0 ∧ cmdData w &&& dataMask = 0 := by
  have hall : cmdOp w &&& 0xF = cmdOp w := BitVec.and_allOnes
  calc w &&& mkCmd 0xF subMask dataMask = mkCmd op 0 0
      ↔ mkCmd (cmdOp w &&& 0xF) (cmdSub w &&& subMask) (cmdData w &&& dataMask) = mkCmd op 0 0 := by
        rw [← mkCmd_and, mkCmd_fields]
    _ ↔ cmdOp w = op ∧ cmdSub w &&& subMask = 0 ∧ cmdData w &&& dataMask = 0 := by rw [mkCmd_inj, hall]

section
variable (w : Cmd)

/-- The mask of SUB[3:1] (30_encoding.md R76, R80). -/
theorem cmdSub_and_flagMask : cmdSub w &&& 0xE = 0 ↔ (cmdSub w).extractLsb' 1 3 = 0 :=
  and_upperMask_eq_zero_iff (m := 3) (n := 1) (cmdSub w)

/-- The mask of DATA[63:32] (30_encoding.md R76, R77). -/
theorem cmdData_and_timeMask : cmdData w &&& 0xFFFFFFFF00000000 = 0 ↔ (cmdData w).extractLsb' 32 32 = 0 :=
  and_upperMask_eq_zero_iff (m := 32) (n := 32) (cmdData w)

theorem edgeWord_iff : w &&& 0xFEFFFFFFFF00000000 = 0x100000000000000000 ↔
    cmdOp w = 1 ∧ (cmdSub w).extractLsb' 1 3 = 0 ∧ (cmdData w).extractLsb' 32 32 = 0 := by
  rw [← cmdSub_and_flagMask, ← cmdData_and_timeMask]
  exact and_mkCmd_eq_iff w 1 0xE 0xFFFFFFFF00000000

theorem blinkTickWord_iff : w &&& 0xFFFFFFFFFF00000000 = 0x200000000000000000 ↔
    cmdOp w = 2 ∧ cmdSub w = 0 ∧ (cmdData w).extractLsb' 32 32 = 0 := by
  rw [← cmdData_and_timeMask, ← BitVec.and_allOnes (x := cmdSub w)]
  exact and_mkCmd_eq_iff w 2 0xF 0xFFFFFFFF00000000

theorem renderTickWord_iff : w &&& 0xFFFFFFFFFFFFFFFFFF = 0x300000000000000000 ↔
    cmdOp w = 3 ∧ cmdSub w = 0 ∧ cmdData w = 0 := by
  rw [← BitVec.and_allOnes (x := cmdSub w), ← BitVec.and_allOnes (x := cmdData w)]
  exact and_mkCmd_eq_iff w 3 0xF 0xFFFFFFFFFFFFFFFF

theorem lookupWord_iff : w &&& 0xF0FFFFFFFFFFFFFFFF = 0x400000000000000000 ↔ cmdOp w = 4 ∧ cmdData w = 0 := by
  rw [← BitVec.and_allOnes (x := cmdData w)]
  exact (and_mkCmd_eq_iff w 4 0 0xFFFFFFFFFFFFFFFF).trans (and_congr_right fun _ => and_iff_right BitVec.and_zero)

theorem encodeWord_iff : w &&& 0xFE0000000000000000 = 0x500000000000000000 ↔
    cmdOp w = 5 ∧ (cmdSub w).extractLsb' 1 3 = 0 := by
  rw [← cmdSub_and_flagMask]
  exact (and_mkCmd_eq_iff w 5 0xE 0).trans (and_congr_right fun _ => and_iff_left BitVec.and_zero)

/-! Where the operands stand in the word. -/

theorem extractLsb'_cmdData {start len : Nat} (h : start + len ≤ 64) :
    (cmdData w).extractLsb' start len = w.extractLsb' start len :=
  BitVec.extractLsb'_extractLsb'_of_le h

theorem extractLsb'_cmdSub_flag : (cmdSub w).extractLsb' 0 1 = w.extractLsb' 64 1 :=
  extractLsb'_extractLsb' w (by decide)

/-- SUB[0] is bit 64 of the word: 0 is A, 1 is B (30_encoding.md R76). -/
theorem buttonOfBit_cmdSub :
    buttonOfBit ((cmdSub w).extractLsb' 0 1) = if w.getLsbD 64 then Button.B else Button.A := by
  rw [extractLsb'_cmdSub_flag, BitVec.getLsbD_eq_extractLsb']
  obtain hbit | hbit := BitVec.eq_zero_or_eq_one (w.extractLsb' 64 1) <;> rw [hbit] <;> rfl

/-! The words of each format. -/

theorem decode_eq_edge_iff (b : Button) (ts : Millis) : decode w = .ok (.edge b ts) ↔
    w &&& 0xFEFFFFFFFF00000000 = 0x100000000000000000 ∧
      b = (if w.getLsbD 64 then Button.B else Button.A) ∧ ts = w.extractLsb' 0 32 := by
  rw [decode_eq_ok_iff, edgeWord_iff, and_assoc]
  refine and_congr_right fun hop => ?_
  rw [decode_of_op_edge hop, buttonOfBit_cmdSub, extractLsb'_cmdData w (start := 0) (by decide)]
  simp only [whenZero_eq_ok_iff, Bool.and_eq_true, decide_eq_true_eq, Instr.edge.injEq]

theorem decode_eq_blinkTick_iff (now : Millis) : decode w = .ok (.blinkTick now) ↔
    w &&& 0xFFFFFFFFFF00000000 = 0x200000000000000000 ∧ now = w.extractLsb' 0 32 := by
  rw [decode_eq_ok_iff, blinkTickWord_iff, and_assoc]
  refine and_congr_right fun hop => ?_
  rw [decode_of_op_blinkTick hop, extractLsb'_cmdData w (start := 0) (by decide)]
  simp only [whenZero_eq_ok_iff, Bool.and_eq_true, decide_eq_true_eq, Instr.blinkTick.injEq]

theorem decode_eq_renderTick_iff :
    decode w = .ok .renderTick ↔ w &&& 0xFFFFFFFFFFFFFFFFFF = 0x300000000000000000 := by
  rw [decode_eq_ok_iff, renderTickWord_iff]
  refine and_congr_right fun hop => ?_
  rw [decode_of_op_renderTick hop]
  simp only [whenZero_eq_ok_iff, Bool.and_eq_true, decide_eq_true_eq, and_true]

theorem decode_eq_lookup_iff (d : Digit) : decode w = .ok (.lookup d) ↔
    w &&& 0xF0FFFFFFFFFFFFFFFF = 0x400000000000000000 ∧ d = w.extractLsb' 64 4 := by
  rw [decode_eq_ok_iff, lookupWord_iff, and_assoc]
  refine and_congr_right fun hop => ?_
  rw [decode_of_op_lookup hop, cmdSub]
  simp only [whenZero_eq_ok_iff, decide_eq_true_eq, Instr.lookup.injEq]

theorem decode_eq_encode_iff (r g b br : UQ15) (m : BitVec 1) : decode w = .ok (.encode r g b br m) ↔
    w &&& 0xFE0000000000000000 = 0x500000000000000000 ∧
      r = w.extractLsb' 48 16 ∧ g = w.extractLsb' 32 16 ∧ b = w.extractLsb' 16 16 ∧ br = w.extractLsb' 0 16 ∧
      m = w.extractLsb' 64 1 := by
  rw [decode_eq_ok_iff, encodeWord_iff, and_assoc]
  refine and_congr_right fun hop => ?_
  rw [decode_of_op_encode hop, extractLsb'_cmdSub_flag, extractLsb'_cmdData w (start := 48) (by decide),
    extractLsb'_cmdData w (start := 32) (by decide), extractLsb'_cmdData w (start := 16) (by decide),
    extractLsb'_cmdData w (start := 0) (by decide)]
  simp only [whenZero_eq_ok_iff, decide_eq_true_eq, Instr.encode.injEq]

end

end Sys2Proof

namespace Sys2Proof.Machine

/-- LOOKUP of a code that is no decimal digit (40_font_lut.md R101). -/
theorem lookupDigit_of_ge {d : Digit} (s : State) (hd : 10 ≤ d.toNat) :
    lookupDigit d s = respond .invalidDigit 0 s := by
  rw [lookupDigit, (fontRead_eq_none_iff s.cfg d).2 hd]

/-- Settles O4, format by format; a LOOKUP beyond the font finds no entry. -/
theorem decoderReadsEachFormatsFields : Obligations.DecoderReadsEachFormatsFields := by
  unfold Obligations.DecoderReadsEachFormatsFields
  refine ⟨decode_eq_edge_iff, decode_eq_blinkTick_iff, decode_eq_renderTick_iff, decode_eq_lookup_iff,
    decode_eq_encode_iff, fun d s hd => ?_⟩
  calc exec (.lookup d) s = .next (lookupDigit d s) := rfl
    _ = .next { s with responses := s.responses ++ [respWord .invalidDigit 0] } := by
      rw [lookupDigit_of_ge s hd, respond_spec]

end Sys2Proof.Machine
end

section
/-! A command taken from the port, and what taking one leaves for the next: a step at a word that decodes is the command's
meaning (30_encoding.md R72), and no command touches the reset input or what is presented (60_exceptions.md R200). -/

namespace Sys2Proof.Machine

/-- No command faults or is refused. -/
theorem exec_answers (i : Instr) (s : State) : ∃ t, exec i s = .next t := by
  cases i <;> exact ⟨_, rfl⟩

variable {s t : State} {i : Instr}

/-- A step at a word that decodes runs the command, with rst released and no blink that must end first. -/
theorem step_of_decode {w : Cmd} {rest : List PortEvent} (hin : s.inputs = .cmd w :: rest) (hrst : s.rst = false)
    (hblink : s.blinkPending = none ∨ ∃ b ts, i = .edge b ts) (hdec : decode w = .ok i) :
    step s = exec i { s with inputs := rest } := by
  have hwaits : waitsForBlink (.cmd w) s = false := by
    obtain hnone | ⟨b, ts, rfl⟩ := hblink
    · simp [waitsForBlink, hnone]
    · simp [waitsForBlink, isEdgeWord, hdec]
  simp [step, takeNext, hin, hwaits, takeEvent, hrst, runWord, hdec]

/-- What no command touches: the reset input and the presentations that wait; and a command that is no
BLINK_TICK leaves the blink under way, or none, as it is (43_blink_scheduler.md R148). -/
theorem exec_keeps_port (h : exec i s = .next t) :
    t.rst = s.rst ∧ t.inputs = s.inputs ∧ ((∀ now, i ≠ .blinkTick now) → t.blinkPending = s.blinkPending) := by
  obtain ⟨b, ts, -, rfl⟩ | ⟨now, rfl, rfl⟩ | ⟨-, rfl⟩ | ⟨d, -, rfl⟩ | ⟨r, g, b, br, m, -, rfl⟩ := exec_next_cases i s t h
  · obtain ⟨-, e⟩ | ⟨-, e⟩ := edgeEvent_spec b ts s <;> simp [e]
  · obtain ⟨-, _, _, _, _, e⟩ | ⟨-, _, _, _, -, e⟩ := blinkTick_frame now s <;> simp [e]
  · obtain ⟨-, e⟩ | ⟨-, -, e⟩ | ⟨-, _, -, e⟩ := renderDigit_spec s.currentDigit s <;> simp [e]
  · obtain ⟨_, _, e, -⟩ := lookupDigit_spec d s
    simp [e]
  · simp

/-- A run goes on from the state its first step answers. -/
theorem run_succ_of_step (h : step s = .next t) (k : Nat) : core.run (k + 1) s = core.run k t := by
  simp only [Host.Core.run, Host.Check.core_step]
  rw [h]

/-- TICK's text is the two commands, where its operand is in range (30_encoding.md R84). -/
theorem assembleLine_tick {n : Nat} (hn : n < 2 ^ 32) :
    assembleLine (.tick n) = .ok [.renderTick, .blinkTick (BitVec.ofNat 32 n)] := by
  have hwf : (AsmLine.tick n).wellFormed = true := by simpa only [AsmLine.wellFormed, fits, decide_eq_true_eq] using hn
  rw [assembleLine, if_pos hwf]
  rfl

/-- A step at a command's own word, at rest and out of reset, runs the command on what is presented after it. -/
theorem step_of_encode {rest : List PortEvent} (hin : s.inputs = .cmd (encode i) :: rest) (hrst : s.rst = false)
    (hblink : s.blinkPending = none) : step s = exec i { s with inputs := rest } :=
  step_of_decode hin hrst (.inl hblink) (decode_encode i)

/-- After a command that is no BLINK_TICK the block is at rest and out of reset again, the next presentation first. -/
theorem step_of_encode_at_rest {rest : List PortEvent} (hin : s.inputs = .cmd (encode i) :: rest) (hrst : s.rst = false)
    (hblink : s.blinkPending = none) (hi : ∀ now, i ≠ .blinkTick now) :
    ∃ t, exec i { s with inputs := rest } = .next t ∧ step s = .next t ∧
      t.inputs = rest ∧ t.rst = false ∧ t.blinkPending = none := by
  obtain ⟨t, h⟩ := exec_answers i { s with inputs := rest }
  obtain ⟨hrst', hin', hblink'⟩ := exec_keeps_port h
  exact ⟨t, h, (step_of_encode hin hrst hblink).trans h, hin', hrst'.trans hrst, (hblink' hi).trans hblink⟩

/-- Settles O7: three steps, each at the next command's word, since RENDER_TICK and EDGE leave the block at rest and out of
reset, and what is presented as it is. -/
theorem tickIsRenderThenBlinkWithRoomForAnEdge : Obligations.TickIsRenderThenBlinkWithRoomForAnEdge := by
  unfold Obligations.TickIsRenderThenBlinkWithRoomForAnEdge
  refine fun n hn => ⟨assembleLine_tick hn, fun s b ts hrst hblink hin => ?_⟩
  rw [hin]
  obtain ⟨s1, hrender, step1, hin1, hrst1, hblink1⟩ := step_of_encode_at_rest hin hrst hblink nofun
  obtain ⟨s2, hedge, step2, hin2, hrst2, hblink2⟩ := step_of_encode_at_rest hin1 hrst1 hblink1 nofun
  obtain ⟨s3, htick⟩ := exec_answers (.blinkTick (BitVec.ofNat 32 n)) { s2 with inputs := [] }
  have step3 : step s2 = .next s3 := (step_of_encode hin2 hrst2 hblink2).trans htick
  refine ⟨s1, s2, s3, hrender, hedge, htick, ?_⟩
  calc core.run 3 s = core.run 2 s1 := run_succ_of_step step1 2
    _ = core.run 1 s2 := run_succ_of_step step2 1
    _ = core.run 0 s3 := run_succ_of_step step3 0
    _ = .next s3 := rfl

end Sys2Proof.Machine
end

section
/-! What LOOKUP answers (40_font_lut.md R100 to R102). -/

namespace Sys2Proof.Machine

/-- LOOKUP of a decimal digit (40_font_lut.md R100). -/
theorem lookupDigit_of_lt {d : Digit} (s : State) (hd : d.toNat < 10) :
    lookupDigit d s = respond .ok ((s.cfg.font[d.toNat]).setWidth 32) s := by
  rw [lookupDigit, fontRead_of_lt s.cfg d hd]

theorem exec_lookup (d : Digit) (s : State) : exec (.lookup d) s = .next (lookupDigit d s) := rfl

/-- A pattern in a response word keeps its elements at their bits, and the 7 bits above them are 0 (40_font_lut.md R100, R102). -/
theorem getLsbD_pattern_setWidth (pat : Pattern) (i : Nat) :
    (pat.setWidth 32).getLsbD i = (decide (i < 25) && pat.getLsbD i) := by
  rw [BitVec.getLsbD_setWidth]
  by_cases hi : i < 25
  · have hword : i < 32 := by omega
    simp only [hi, hword]
  · have habove : pat.getLsbD i = false := BitVec.getLsbD_of_ge pat i (by omega)
    simp only [habove, Bool.and_false]

/-- Settles O17: the font has an entry for exactly the codes 0..9, and LOOKUP only responds. -/
theorem lookupAnswersThePattern : Obligations.LookupAnswersThePattern := by
  unfold Obligations.LookupAnswersThePattern
  refine ⟨fun d s hd => ⟨(s.cfg.font[d.toNat]).setWidth 32, ?_, getLsbD_pattern_setWidth _⟩, fun d s hd => ?_⟩
  · rw [exec_lookup, lookupDigit_of_lt s hd, respond_spec]
  · rw [exec_lookup, lookupDigit_of_ge s hd, respond_spec]

end Sys2Proof.Machine
end

section
/-! What ENCODE answers (41_pixel_encoder.md R110 to R114): the bytes of the packed word, and each component's product. -/

namespace Sys2Proof.Machine

/-! Where the components stand in the packed word (41_pixel_encoder.md R112). -/

theorem enc_greenByte (r g b br : UQ15) (m : BitVec 1) : (enc r g b br m).extractLsb' 24 8 = comp br g m := by
  rw [enc, BitVec.extractLsb'_append_eq_of_le (by decide), BitVec.extractLsb'_append_eq_of_le (by decide)]
  exact BitVec.extractLsb'_append_eq_left

theorem enc_redByte (r g b br : UQ15) (m : BitVec 1) : (enc r g b br m).extractLsb' 16 8 = comp br r m := by
  rw [enc, BitVec.extractLsb'_append_eq_of_le (by decide), BitVec.extractLsb'_append_eq_of_le (by decide)]
  exact BitVec.extractLsb'_append_eq_right

theorem enc_blueByte (r g b br : UQ15) (m : BitVec 1) : (enc r g b br m).extractLsb' 8 8 = comp br b m := by
  rw [enc, BitVec.extractLsb'_append_eq_of_le (by decide)]
  exact BitVec.extractLsb'_append_eq_right

theorem enc_lowByte (r g b br : UQ15) (m : BitVec 1) : (enc r g b br m).extractLsb' 0 8 = 0 :=
  BitVec.extractLsb'_append_eq_right

/-- The product under a component, at the largest codes (41_pixel_encoder.md R111). -/
theorem compProduct_le (br c : UQ15) (m : BitVec 1) :
    255 * br.toNat * c.toNat * m.toNat ≤ 255 * 65535 * 65535 := by
  have hbr : br.toNat ≤ 65535 := Nat.le_of_lt_succ br.isLt
  have hc : c.toNat ≤ 65535 := Nat.le_of_lt_succ c.isLt
  have hm : m.toNat ≤ 1 := Nat.le_of_lt_succ m.isLt
  calc 255 * br.toNat * c.toNat * m.toNat
      ≤ 255 * 65535 * 65535 * 1 := by gcongr
    _ = 255 * 65535 * 65535 := Nat.mul_one _

/-- ENCODE only responds, with OK and the packed word. -/
theorem exec_encode (r g b br : UQ15) (m : BitVec 1) (s : State) :
    exec (.encode r g b br m) s = .next (respond .ok (enc r g b br m) s) := rfl

/-- Settles O18: the answered word is enc's, each byte of it is a component, and a component is its floored and clamped
product. -/
theorem encodeAnswersThePackedWord : Obligations.EncodeAnswersThePackedWord := by
  intro r g b br m s
  refine ⟨enc r g b br m, ?answer, ?green, ?red, ?blue, enc_lowByte r g b br m, fun c => compProduct_le br c m, by decide⟩
  case answer => rw [exec_encode, respond_spec]
  case green => rw [enc_greenByte, comp_toNat]
  case red => rw [enc_redByte, comp_toNat]
  case blue => rw [enc_blueByte, comp_toNat]

/-- Settles O19: mask 0 makes every product 0, and mask 1 leaves the scaled channel as it is. -/
theorem maskZeroGivesTheZeroWord : Obligations.MaskZeroGivesTheZeroWord := by
  refine ⟨enc_mask_zero, fun br c => ?_⟩
  have hmask : (1 : BitVec 1).toNat = 1 := rfl
  rw [comp_toNat, hmask, Nat.mul_one]

end Sys2Proof.Machine
end

section
/-! What EDGE does on each side of the debounce gate (42_input_capture.md R120 to R132): nothing but an answer inside the
window, and outside it a press, whose fields are said here one by one. -/

namespace Sys2Proof.Machine

/-- A falling edge always answers with the state edgeEvent computes (42_input_capture.md R120). -/
theorem exec_edge (b : Button) (ts : Millis) (s : State) : exec (.edge b ts) s = .next (edgeEvent b ts s) := rfl

/-- The gate's difference as a number: the subtraction wraps at 2^32 (42_input_capture.md R131). -/
theorem gateRejects_iff_wrapped (ts : Millis) (s : State) :
    gateRejects ts s = true ↔
      (ts.toNat + 2 ^ 32 - s.lastEventTime.toNat) % 2 ^ 32 < s.cfg.debounceWindowMs.toNat := by
  rw [gateRejects_iff, ← elapsed_toNat, elapsed]

variable {s : State} {b : Button} {ts now : Millis}

/-- Inside the window the answer, with the digit as it stands, is all an edge leaves (42_input_capture.md R130). -/
theorem edgeEvent_of_rejected (hgate : gateRejects ts s = true) :
    edgeEvent b ts s = respond .spuriousEdge (s.currentDigit.setWidth 32) s := if_pos hgate

theorem exec_edge_of_rejected (hgate : gateRejects ts s = true) :
    exec (.edge b ts) s =
      .next { s with responses := s.responses ++ [respWord .spuriousEdge (BitVec.ofNat 32 s.currentDigit.toNat)] } := by
  rw [exec_edge, edgeEvent_of_rejected hgate, respond_spec, BitVec.ofNat_toNat]

/-- Outside the window an edge is a press (42_input_capture.md R123 to R127). -/
theorem edgeEvent_of_accepted (hgate : gateRejects ts s = false) :
    edgeEvent b ts s = respond .ok ((pressDigit b s.currentDigit).setWidth 32)
      { countPress b s with
        lastEventTime := ts
        currentDigit := pressDigit b s.currentDigit
        indicatorMode := pressMode s.cfg.variant b
        indOut := (acceptPress b ts s).indOut } := by
  obtain ⟨hrejects, -⟩ | ⟨-, hpress⟩ := edgeEvent_spec b ts s
  · simp [hgate] at hrejects
  · exact hpress

section
variable (hgate : gateRejects ts s = false)
include hgate

theorem edgeEvent_lastEventTime_of_accepted : (edgeEvent b ts s).lastEventTime = ts := by
  rw [edgeEvent_of_accepted hgate, respond_lastEventTime]

theorem edgeEvent_currentDigit_of_accepted : (edgeEvent b ts s).currentDigit = pressDigit b s.currentDigit := by
  rw [edgeEvent_of_accepted hgate, respond_currentDigit]

theorem edgeEvent_indicatorMode_of_accepted : (edgeEvent b ts s).indicatorMode = pressMode s.cfg.variant b := by
  rw [edgeEvent_of_accepted hgate, respond_indicatorMode]

theorem edgeEvent_indOut_of_accepted : (edgeEvent b ts s).indOut = (acceptPress b ts s).indOut := by
  rw [edgeEvent_of_accepted hgate, respond_indOut]

theorem edgeEvent_responses_of_accepted :
    (edgeEvent b ts s).responses = s.responses ++ [respWord .ok ((pressDigit b s.currentDigit).setWidth 32)] := by
  rw [edgeEvent_of_accepted hgate, respond_responses, countPress_responses]

end

/-- An edge, dropped or taken, moves no blink timer (42_input_capture.md R127). -/
@[simp] theorem edgeEvent_timer0 (b : Button) (ts : Millis) (s : State) : (edgeEvent b ts s).timer0 = s.timer0 := by
  obtain ⟨-, h⟩ | ⟨-, h⟩ := edgeEvent_spec b ts s <;> simp [h]

@[simp] theorem edgeEvent_timer1 (b : Button) (ts : Millis) (s : State) : (edgeEvent b ts s).timer1 = s.timer1 := by
  obtain ⟨-, h⟩ | ⟨-, h⟩ := edgeEvent_spec b ts s <;> simp [h]

/-! The levels a press leaves (42_input_capture.md R127). -/

theorem postPressDrive_indOut_single (m : ModeCode) (hv : s.cfg.variant = .single) :
    (postPressDrive m s).indOut = s.indOut ||| 1 := by
  simp only [postPressDrive, hv, drive_indOut, driveBit_single_led, if_true]

/-- Channel-select: whatever was on before, exactly the channel of a named mode is on. -/
theorem postPressDrive_indOut_multi {m : ModeCode} (hv : s.cfg.variant = .multi) (hm : namedMode .multi m = true) :
    (postPressDrive m s).indOut = modeBits .multi m := by
  have hselect : ∀ (m : ModeCode) (out : BitVec 3), namedMode .multi m = true →
      driveBit .multi .b (m == modeBlueOnly)
        (driveBit .multi .g (m == modeGreenOnly) (driveBit .multi .r (m == modeRedOnly) out)) = modeBits .multi m := by
    decide
  simpa only [postPressDrive, hv, drive_indOut, drive_cfg] using hselect m s.indOut hm

theorem namedMode_pressMode (v : Variant) (b : Button) : namedMode v (pressMode v b) = true := by
  cases v <;> cases b <;> rfl

/-- A press drives as its new mode says; what else it writes plays no part in the levels. -/
theorem acceptPress_indOut (b : Button) (ts : Millis) (s : State) :
    (acceptPress b ts s).indOut = (postPressDrive (pressMode s.cfg.variant b) s).indOut := by
  cases hv : s.cfg.variant <;> simp [acceptPress, postPressDrive, hv]

theorem acceptPress_indOut_single (hv : s.cfg.variant = .single) : (acceptPress b ts s).indOut = s.indOut ||| 1 := by
  rw [acceptPress_indOut, postPressDrive_indOut_single _ hv]

theorem acceptPress_indOut_multi (hv : s.cfg.variant = .multi) :
    (acceptPress b ts s).indOut = modeBits .multi (pressMode .multi b) := by
  rw [acceptPress_indOut, hv, postPressDrive_indOut_multi hv (namedMode_pressMode .multi b)]

/-! The level a due timer's toggle drives: not the timer's phase, whatever stood on the channel before
(43_blink_scheduler.md R144, R145). -/

theorem blinkTick_of_atomic (hatomic : s.cfg.blinkPreemptible = false) : blinkTick now s = blinkAtomic now s :=
  if_neg (by simp [hatomic])

theorem blinkTick_drives_led (hv : s.cfg.variant = .single) (hatomic : s.cfg.blinkPreemptible = false)
    (hmode : s.indicatorMode = modeActive)
    (hperiod : s.cfg.periodSingleMs.toNat ≤ (now - s.timer0.lastToggle).toNat) :
    (blinkTick now s).indOut.getLsbD 0 = !s.timer0.phase := by
  have hdue : timerDue .t0 s.indicatorMode now s = true :=
    (timerDue_iff _ _ _ _).2 ⟨.inl (by rw [hv, hmode]; rfl), by simpa only [period, hv, getTimer_t0] using hperiod⟩
  rw [blinkTick_of_atomic hatomic, blinkAtomic_single now s hv, respond_indOut, (outAfter_single _ _ _ _).1,
    if_pos ⟨hdue, hmode⟩]

/-- Timer 1 of MULTI serves two modes, each with its own channel (43_blink_scheduler.md R141). -/
theorem blinkTick_drives_green_or_blue (hv : s.cfg.variant = .multi) (hatomic : s.cfg.blinkPreemptible = false)
    (hperiod : s.cfg.periodGbMs.toNat ≤ (now - s.timer1.lastToggle).toNat) :
    (s.indicatorMode = modeGreenOnly → (blinkTick now s).indOut.getLsbD 1 = !s.timer1.phase) ∧
    (s.indicatorMode = modeBlueOnly → (blinkTick now s).indOut.getLsbD 2 = !s.timer1.phase) := by
  have hdue (huses : usesTimer .multi .t1 s.indicatorMode = true) : timerDue .t1 s.indicatorMode now s = true :=
    (timerDue_iff _ _ _ _).2 ⟨.inl (by rw [hv, huses]), by simpa only [period, hv, getTimer_t1] using hperiod⟩
  rw [blinkTick_of_atomic hatomic, blinkAtomic_multi now s hv, respond_indOut]
  obtain ⟨-, hgreen, hblue⟩ := outAfter_multi_t1 s.indicatorMode (timerDue .t1 s.indicatorMode now s) (!s.timer1.phase)
    (outAfter .multi .t0 s.indicatorMode (timerDue .t0 s.indicatorMode now s) (!s.timer0.phase) s.indOut)
  refine ⟨fun hmode => ?_, fun hmode => ?_⟩
  · rw [hgreen, if_pos ⟨hdue (by rw [hmode]; rfl), hmode⟩]
  · rw [hblue, if_pos ⟨hdue (by rw [hmode]; rfl), hmode⟩]

/-- Settles O21: the wrapped difference is the gate's, and a rejected edge only responds. -/
theorem edgeInsideTheWindowIsDropped : Obligations.EdgeInsideTheWindowIsDropped :=
  fun s _ ts hinside => exec_edge_of_rejected ((gateRejects_iff_wrapped ts s).2 hinside)

/-- Settles O23: the accepted press writes digitUp or digitDown, whose numbers are the spec's. -/
theorem pressedDigitIsDecimal : Obligations.PressedDigitIsDecimal := by
  intro s ts hopen
  have hgate := (gateRejects_false_iff ts s).2 hopen
  have hup : (edgeEvent .A ts s).currentDigit.toNat = (s.currentDigit.toNat + 1) % 10 := by
    rw [edgeEvent_currentDigit_of_accepted hgate, pressDigit, digitUp_toNat]
  have hdown : (edgeEvent .B ts s).currentDigit.toNat = (s.currentDigit.toNat + 9) % 10 := by
    rw [edgeEvent_currentDigit_of_accepted hgate, pressDigit, digitDown_toNat]
  exact ⟨⟨_, exec_edge _ _ _, hup, by omega⟩, ⟨_, exec_edge _ _ _, hdown, by omega, by omega⟩⟩

/-- Settles O24: the press selects by the new mode and moves no timer, so the new mode's next toggle drives the phase the
timer had before the press, negated. -/
theorem postPressDriveLeavesTheBlinkState : Obligations.PostPressDriveLeavesTheBlinkState := by
  intro s b ts now hopen
  have hgate := (gateRejects_false_iff ts s).2 hopen
  have hmode : (edgeEvent b ts s).indicatorMode = pressMode s.cfg.variant b := edgeEvent_indicatorMode_of_accepted hgate
  refine ⟨_, exec_edge b ts s, edgeEvent_timer0 b ts s, edgeEvent_timer1 b ts s, fun hv => ?single, fun hv => ?multi⟩
  case single =>
    have hout : (edgeEvent b ts s).indOut = s.indOut ||| 1 := by
      rw [edgeEvent_indOut_of_accepted hgate, acceptPress_indOut_single hv]
    have hlevels : ∀ out : BitVec 3, (out ||| 1).getLsbD 0 = true ∧ (out ||| 1) &&& 6 = out &&& 6 := by decide
    obtain ⟨hled, hothers⟩ := hlevels s.indOut
    rw [← hout] at hled hothers
    rw [hv] at hmode
    refine ⟨hled, hothers, fun hatomic hperiod => ⟨_, rfl, ?_⟩⟩
    simpa only [edgeEvent_timer0] using blinkTick_drives_led (s := edgeEvent b ts s) (now := now)
      (by rw [edgeEvent_cfg, hv]) (by rw [edgeEvent_cfg, hatomic]) hmode
      (by rw [edgeEvent_cfg, edgeEvent_timer0]; exact hperiod)
  case multi =>
    have hout : (edgeEvent b ts s).indOut = modeBits .multi (pressMode .multi b) := by
      rw [edgeEvent_indOut_of_accepted hgate, acceptPress_indOut_multi hv]
    rw [hv] at hmode
    refine ⟨by rw [hout]; cases b <;> rfl, fun hatomic hperiod => ⟨_, rfl, ?_⟩⟩
    obtain ⟨hgreen, hblue⟩ := blinkTick_drives_green_or_blue (s := edgeEvent b ts s) (now := now)
      (by rw [edgeEvent_cfg, hv]) (by rw [edgeEvent_cfg, hatomic])
      (by rw [edgeEvent_cfg, edgeEvent_timer1]; exact hperiod)
    rw [edgeEvent_timer1] at hgreen hblue
    cases b with
    | A => exact hgreen hmode
    | B => exact hblue hmode

/-- Settles O25: an accepted press on either button sets the one last_event_time the gate reads, so the gate rejects the
second edge, whatever its button. -/
theorem debounceGateIsGlobal : Obligations.DebounceGateIsGlobal := by
  intro s b b' ts ts' hopen hinside
  have hgate := (gateRejects_false_iff ts s).2 hopen
  have hblocked : gateRejects ts' (edgeEvent b ts s) = true := by
    rw [gateRejects_iff, edgeEvent_lastEventTime_of_accepted hgate, edgeEvent_cfg]
    exact hinside
  exact ⟨_, exec_edge b ts s, exec_edge_of_rejected hblocked⟩

/-- Settles O27: the gate's difference wraps, and across the wrap 0x22 is 50 ms after 0xFFFFFFF0 and 0x21 is 49 ms. -/
theorem debounceDifferenceWraps : Obligations.DebounceDifferenceWraps := by
  refine ⟨fun s ts => gateRejects_iff_wrapped ts s, fun s b hwindow hlast => ⟨?accepted, ?rejected⟩⟩
  case accepted =>
    have hgate : gateRejects 0x22 s = false := by
      rw [gateRejects_false_iff, hwindow, hlast]
      decide
    exact ⟨_, exec_edge b _ s, edgeEvent_lastEventTime_of_accepted hgate⟩
  case rejected =>
    have hgate : gateRejects 0x21 s = true := by
      rw [gateRejects_iff, hwindow, hlast]
      decide
    exact ⟨_, _, exec_edge_of_rejected hgate, hlast, rfl⟩

/-- Going back k ms is going on 2^32 - k ms (42_input_capture.md R132). -/
theorem toNat_backward_difference (last : Millis) {k : Nat} (hpos : 0 < k) (hlt : k < 2 ^ 32) :
    ((last - BitVec.ofNat 32 k) - last).toNat = 2 ^ 32 - k := by
  bv_omega

/-- Settles O28: the wrapped difference is at least the window, so the gate accepts. -/
theorem backwardEdgeIsAccepted : Obligations.BackwardEdgeIsAccepted := by
  intro s b k hpos hwindow hlt
  have hdiff := toNat_backward_difference s.lastEventTime hpos hlt
  have hgate : gateRejects (s.lastEventTime - BitVec.ofNat 32 k) s = false := by
    rw [gateRejects_false_iff, hdiff]
    omega
  exact ⟨hdiff, _, _, exec_edge b _ s, edgeEvent_lastEventTime_of_accepted hgate, edgeEvent_responses_of_accepted hgate⟩

end Sys2Proof.Machine
end

section
/-! BLINK_TICK (43_blink_scheduler.md): what a tick leaves in each timer, and the whole next state of an atomic tick, for any
condition that says when each timer is due. -/

namespace Sys2Proof.Machine
variable {s : State} {now : Millis}

theorem exec_blinkTick (now : Millis) (s : State) : exec (.blinkTick now) s = .next (blinkTick now s) := rfl

/-- Timer 1 of SINGLE is the one timer that is absent (10_state.md R30). -/
theorem not_mem_variantTimers_iff {v : Variant} {k : TimerId} : k ∉ variantTimers v ↔ v = .single ∧ k = .t1 := by
  cases v <;> cases k <;> decide

/-- A tick, atomic or sampled, toggles exactly the due timers among the variant's. -/
theorem getTimer_blinkTick {k : TimerId} (hk : k ∈ variantTimers s.cfg.variant) :
    getTimer k (blinkTick now s) = timerAfter (timerDue k s.indicatorMode now s) now (getTimer k s) := by
  unfold blinkTick
  cases hv : s.cfg.variant with
  | single =>
    rw [hv] at hk
    obtain rfl : k = .t0 := List.mem_singleton.1 hk
    split
    · rw [blinkSample_single now s hv]; rfl
    · rw [blinkAtomic_single now s hv]; rfl
  | multi =>
    split
    · rw [blinkSample_multi now s hv]; cases k <;> rfl
    · rw [blinkAtomic_multi now s hv]; cases k <;> rfl

/-- A tick leaves SINGLE's absent timer as it is (10_state.md R30). -/
theorem blinkTick_timer1_single (hv : s.cfg.variant = .single) : (blinkTick now s).timer1 = s.timer1 := by
  unfold blinkTick
  split
  · rw [blinkSample_single now s hv]
  · rw [blinkAtomic_single now s hv]; rfl

/-- Without FREE_RUNNING_TIMERS a timer the mode does not use is frozen (43_blink_scheduler.md R147). -/
theorem getTimer_blinkTick_of_unused {k : TimerId} (hfree : s.cfg.freeRunningTimers = false)
    (hunused : usesTimer s.cfg.variant k s.indicatorMode = false) :
    getTimer k (blinkTick now s) = getTimer k s := by
  by_cases hk : k ∈ variantTimers s.cfg.variant
  · have hdue : timerDue k s.indicatorMode now s = false := by simp [timerDue, hfree, hunused]
    rw [getTimer_blinkTick hk, hdue]
    rfl
  · obtain ⟨hv, rfl⟩ := not_mem_variantTimers_iff.1 hk
    exact blinkTick_timer1_single hv

/-! Laws/Blink.lean's terms for a timer's firing, at a condition decided. -/

theorem timerAfter_decide (P : Prop) [Decidable P] (now : Millis) (t : Timer) :
    timerAfter (decide P) now t = if P then ⟨now, !t.phase⟩ else t := by
  simp [timerAfter, toggled]

theorem firedMask_decide_setWidth (P Q : Prop) [Decidable P] [Decidable Q] :
    (firedMask (decide P) (decide Q)).setWidth 32 = (if P then 1 else 0) + (if Q then 2 else 0) := by
  by_cases hP : P <;> by_cases hQ : Q <;> simp [firedMask, hP, hQ]

theorem firedMask_decide_false_setWidth (P : Prop) [Decidable P] :
    (firedMask (decide P) false).setWidth 32 = if P then 1 else 0 := by
  by_cases hP : P <;> simp [firedMask, hP]

/-- An atomic tick in MULTI: each due timer toggles, and drives the one channel of the mode if the mode is its own. -/
theorem exec_blinkTick_multi {due0 due1 : Prop} [Decidable due0] [Decidable due1] (hv : s.cfg.variant = .multi)
    (hatomic : s.cfg.blinkPreemptible = false) (h0 : timerDue .t0 s.indicatorMode now s = true ↔ due0)
    (h1 : timerDue .t1 s.indicatorMode now s = true ↔ due1) :
    ∃ out, exec (.blinkTick now) s = .next { s with
        timer0 := if due0 then ⟨now, !s.timer0.phase⟩ else s.timer0
        timer1 := if due1 then ⟨now, !s.timer1.phase⟩ else s.timer1
        indOut := out
        responses := s.responses ++ [respWord .ok ((if due0 then 1 else 0) + (if due1 then 2 else 0))] } ∧
      out.getLsbD 0 = (if due0 ∧ s.indicatorMode = 0 then !s.timer0.phase else s.indOut.getLsbD 0) ∧
      out.getLsbD 1 = (if due1 ∧ s.indicatorMode = 1 then !s.timer1.phase else s.indOut.getLsbD 1) ∧
      out.getLsbD 2 = (if due1 ∧ s.indicatorMode = 2 then !s.timer1.phase else s.indOut.getLsbD 2) := by
  have hd0 : timerDue .t0 s.indicatorMode now s = decide due0 := Bool.eq_iff_iff.2 (by rw [h0, decide_eq_true_iff])
  have hd1 : timerDue .t1 s.indicatorMode now s = decide due1 := Bool.eq_iff_iff.2 (by rw [h1, decide_eq_true_iff])
  obtain ⟨hred, hgreen, hblue⟩ := outAfter_multi_t0 s.indicatorMode (decide due0) (!s.timer0.phase) s.indOut
  obtain ⟨hred', hgreen', hblue'⟩ := outAfter_multi_t1 s.indicatorMode (decide due1) (!s.timer1.phase)
    (outAfter .multi .t0 s.indicatorMode (decide due0) (!s.timer0.phase) s.indOut)
  simp only [decide_eq_true_iff] at hred hgreen' hblue'
  refine ⟨_, ?_, hred'.trans hred, by rw [hgreen', hgreen], by rw [hblue', hblue]⟩
  rw [exec_blinkTick, blinkTick_of_atomic hatomic, blinkAtomic_multi now s hv, hd0, hd1]
  simp only [respond_spec, timerAfter_decide, firedMask_decide_setWidth]

/-- An atomic tick in SINGLE: timer 0 toggles if due, and drives the LED in ACTIVE. -/
theorem exec_blinkTick_single {due0 : Prop} [Decidable due0] (hv : s.cfg.variant = .single)
    (hatomic : s.cfg.blinkPreemptible = false) (h0 : timerDue .t0 s.indicatorMode now s = true ↔ due0) :
    ∃ out, exec (.blinkTick now) s = .next { s with
        timer0 := if due0 then ⟨now, !s.timer0.phase⟩ else s.timer0
        indOut := out
        responses := s.responses ++ [respWord .ok (if due0 then 1 else 0)] } ∧
      out.getLsbD 0 = (if due0 ∧ s.indicatorMode = 1 then !s.timer0.phase else s.indOut.getLsbD 0) ∧
      out &&& 6 = s.indOut &&& 6 := by
  have hd0 : timerDue .t0 s.indicatorMode now s = decide due0 := Bool.eq_iff_iff.2 (by rw [h0, decide_eq_true_iff])
  obtain ⟨hled, hothers⟩ := outAfter_single s.indicatorMode (decide due0) (!s.timer0.phase) s.indOut
  simp only [decide_eq_true_iff] at hled
  refine ⟨_, ?_, hled, hothers⟩
  rw [exec_blinkTick, blinkTick_of_atomic hatomic, blinkAtomic_single now s hv, hd0]
  simp only [respond_spec, timerAfter_decide, firedMask_decide_false_setWidth]

/-- With FREE_RUNNING_TIMERS a timer is due on its period alone (43_blink_scheduler.md R147). -/
theorem timerDue_iff_of_freeRunning (k : TimerId) (hfree : s.cfg.freeRunningTimers = true) :
    timerDue k s.indicatorMode now s = true ↔ (period s.cfg k).toNat ≤ (now - (getTimer k s).lastToggle).toNat := by
  simp [timerDue_iff, hfree]

/-- Without FREE_RUNNING_TIMERS a due timer is one the mode uses (43_blink_scheduler.md R144). -/
theorem timerDue_iff_of_not_freeRunning (k : TimerId) (hfree : s.cfg.freeRunningTimers = false) :
    timerDue k s.indicatorMode now s = true ↔ usesTimer s.cfg.variant k s.indicatorMode = true ∧
      (period s.cfg k).toNat ≤ (now - (getTimer k s).lastToggle).toNat := by
  simp [timerDue_iff, hfree]

/-! Each timer's period and the modes that use it (43_blink_scheduler.md R141). -/

theorem period_single {c : Config} (hv : c.variant = .single) (k : TimerId) : period c k = c.periodSingleMs := by
  simp only [period, hv]

theorem period_multi_t0 {c : Config} (hv : c.variant = .multi) : period c .t0 = c.periodRMs := by
  simp only [period, hv]

theorem period_multi_t1 {c : Config} (hv : c.variant = .multi) : period c .t1 = c.periodGbMs := by
  simp only [period, hv]

theorem usesTimer_single_t0_iff (m : ModeCode) : usesTimer .single .t0 m = true ↔ m = 1 := beq_iff_eq

theorem usesTimer_multi_t0_iff (m : ModeCode) : usesTimer .multi .t0 m = true ↔ m = 0 := beq_iff_eq

theorem usesTimer_multi_t1_iff (m : ModeCode) : usesTimer .multi .t1 m = true ↔ m = 1 ∨ m = 2 := by
  rw [usesTimer, Bool.or_eq_true, beq_iff_eq, beq_iff_eq]
  rfl

/-- Settles O31: without free running a due timer is one its own mode uses, so the tick's drives need no second test of the
mode, but for timer 1's choice of channel. -/
theorem atomicBlinkTogglesDueTimers : Obligations.AtomicBlinkTogglesDueTimers := by
  refine ⟨fun s now hv hatomic hfree => ?multi, fun s now hv hatomic hfree => ?single⟩
  case multi =>
    intro due0 due1
    have h0 : timerDue .t0 s.indicatorMode now s = true ↔ due0 := by
      rw [timerDue_iff_of_not_freeRunning _ hfree, hv, usesTimer_multi_t0_iff, period_multi_t0 hv, getTimer_t0]
    have h1 : timerDue .t1 s.indicatorMode now s = true ↔ due1 := by
      rw [timerDue_iff_of_not_freeRunning _ hfree, hv, usesTimer_multi_t1_iff, period_multi_t1 hv, getTimer_t1]
    obtain ⟨out, hexec, hred, hgreen, hblue⟩ := exec_blinkTick_multi hv hatomic h0 h1
    exact ⟨out, hexec, by simpa only [and_iff_left_of_imp (fun h : due0 => h.1)] using hred, hgreen, hblue⟩
  case single =>
    intro due0
    have h0 : timerDue .t0 s.indicatorMode now s = true ↔ due0 := by
      rw [timerDue_iff_of_not_freeRunning _ hfree, hv, usesTimer_single_t0_iff, period_single hv, getTimer_t0]
    obtain ⟨out, hexec, hled, hothers⟩ := exec_blinkTick_single hv hatomic h0
    exact ⟨out, hexec, by simpa only [and_iff_left_of_imp (fun h : due0 => h.1)] using hled, hothers⟩

/-- Settles O33: free running, a timer is due on its period whatever the mode; otherwise an unused timer is never due. -/
theorem freeRunningTimersToggleInTheBackground : Obligations.FreeRunningTimersToggleInTheBackground := by
  refine ⟨fun s now hv hatomic hfree => ?multi, fun s now hv hatomic hfree => ?single,
    fun s now hfree => ⟨_, exec_blinkTick now s, ?frozen0, ?frozen1⟩⟩
  case multi =>
    refine exec_blinkTick_multi hv hatomic ?_ ?_
    · rw [timerDue_iff_of_freeRunning _ hfree, period_multi_t0 hv, getTimer_t0]
    · rw [timerDue_iff_of_freeRunning _ hfree, period_multi_t1 hv, getTimer_t1]
  case single =>
    refine exec_blinkTick_single hv hatomic ?_
    rw [timerDue_iff_of_freeRunning _ hfree, period_single hv, getTimer_t0]
  case frozen0 =>
    intro hmode
    refine getTimer_blinkTick_of_unused (k := .t0) hfree (Bool.eq_false_iff.2 ?_)
    obtain ⟨hv, hne⟩ | ⟨hv, hne⟩ := hmode
    · rwa [hv, Ne, usesTimer_multi_t0_iff]
    · rwa [hv, Ne, usesTimer_single_t0_iff]
  case frozen1 =>
    rintro (⟨hv, hneGreen, hneBlue⟩ | hv)
    · refine getTimer_blinkTick_of_unused (k := .t1) hfree (Bool.eq_false_iff.2 ?_)
      rw [hv, Ne, usesTimer_multi_t1_iff]
      exact not_or.2 ⟨hneGreen, hneBlue⟩
    · exact blinkTick_timer1_single hv

/-- Settles O34: going back j ms is going on 2^32 - j ms, at least the period, so the used timer is due and toggles. -/
theorem backwardBlinkFires : Obligations.BackwardBlinkFires := by
  intro s k j hk huses _ hpos hperiod hlt now
  have hdiff : (period s.cfg k).toNat ≤ (now - (getTimer k s).lastToggle).toNat := by
    rw [toNat_backward_difference _ hpos hlt]
    omega
  have hdue : timerDue k s.indicatorMode now s = true := (timerDue_iff _ _ _ _).2 ⟨.inl huses, hdiff⟩
  refine ⟨hdiff, _, exec_blinkTick now s, ?_⟩
  rw [getTimer_blinkTick hk, hdue]
  rfl

end Sys2Proof.Machine
end

section
/-! RENDER_TICK (44_render_driver.md): what a render leaves in each of its three cases, and how far the stream can grow while
no EDGE is accepted. -/

namespace Sys2Proof.Machine

theorem exec_renderTick (s : State) : exec .renderTick s = .next (renderDigit s.currentDigit s) := rfl

/-- The compare is of the whole of last_displayed: None equals no digit (44_render_driver.md R161). -/
theorem alreadyDisplayed_iff (d : Digit) (s : State) : alreadyDisplayed d s = true ↔ s.lastDisplayed = ⟨true, d⟩ := by
  rw [alreadyDisplayed, Bool.and_eq_true, beq_iff_eq, LastDisplayed.mk.injEq]

section
variable {s : State} {d : Digit}

/-- A render of the digit displayed last is an answer and nothing else (44_render_driver.md R161, R165). -/
theorem renderDigit_of_displayed (hshown : s.lastDisplayed = ⟨true, d⟩) : renderDigit d s = respond .ok 0 s :=
  if_pos ((alreadyDisplayed_iff d s).2 hshown)

/-- A digit without a font entry is skipped (44_render_driver.md R164). -/
theorem renderDigit_of_invalid (hchanged : s.lastDisplayed ≠ ⟨true, d⟩) (hd : 10 ≤ d.toNat) :
    renderDigit d s = respond .invalidDigit 0 s := by
  rw [renderDigit, if_neg (mt (alreadyDisplayed_iff d s).1 hchanged), (fontRead_eq_none_iff s.cfg d).2 hd]

/-- A changed decimal digit pushes its frame and is the one displayed from then on (44_render_driver.md R162, R163). -/
theorem renderDigit_of_changed (hchanged : s.lastDisplayed ≠ ⟨true, d⟩) (hd : d.toNat < 10) :
    renderDigit d s = respond .ok 25
      { s with pixStream := s.pixStream ++ frame s.cfg s.cfg.font[d.toNat], lastDisplayed := ⟨true, d⟩ } := by
  rw [renderDigit, if_neg (mt (alreadyDisplayed_iff d s).1 hchanged), fontRead_of_lt s.cfg d hd]
  simp only [pushAll_spec]

end

theorem frame_getElem? (c : Config) (pat : Pattern) {i : Nat} (hi : i < 25) :
    (frame c pat)[i]? = some (litWord c pat i) := by
  rw [frame_eq_map_litWord, List.getElem?_map, List.getElem?_range hi, Option.map_some]

/-- Settles O40: the words pushed are the frame of the digit's font entry. -/
theorem changedDigitPushesItsFrame : Obligations.ChangedDigitPushesItsFrame := by
  intro s hd hdiffers
  have hchanged : s.lastDisplayed ≠ ⟨true, s.currentDigit⟩ := by
    intro hshown
    rw [hshown] at hdiffers
    simp at hdiffers
  refine ⟨frame s.cfg s.cfg.font[s.currentDigit.toNat], ?_, frame_length _ _, fun i hi => frame_getElem? _ _ hi⟩
  rw [exec_renderTick, renderDigit_of_changed hchanged hd, respond_spec]

/-- Settles O41: a digit above 9 has no font entry. -/
theorem invalidDigitIsSkipped : Obligations.InvalidDigitIsSkipped := by
  intro s hd hchanged
  rw [exec_renderTick, renderDigit_of_invalid hchanged hd, respond_spec]

/-! Runs without an accepted press: a frame is pushed only where the current digit is not on display, and puts it there, where
it stays (44_render_driver.md R165). -/

variable {s t : State} {i : Instr}

/-- An EDGE that counts as no accepted press of any button is one the gate rejects. -/
theorem gateRejects_of_not_acceptedOn {b : Button} {ts : Millis} (hpress : ∀ b', acceptedOn b' (.edge b ts) s = false) :
    gateRejects ts s = true := by
  simpa [acceptedOn] using hpress b

/-- A command that is no RENDER_TICK and no accepted press moves neither the digit, nor the one displayed, nor the stream. -/
theorem exec_keeps_display (h : exec i s = .next t) (hpress : ∀ b, acceptedOn b i s = false) (hi : i ≠ .renderTick) :
    t.currentDigit = s.currentDigit ∧ t.lastDisplayed = s.lastDisplayed ∧ t.pixStream = s.pixStream := by
  obtain ⟨b, ts, rfl, rfl⟩ | ⟨now, -, rfl⟩ | ⟨rfl, -⟩ | ⟨d, -, rfl⟩ | ⟨r, g, b, br, m, -, rfl⟩ := exec_next_cases i s t h
  · simp [edgeEvent_of_rejected (gateRejects_of_not_acceptedOn hpress)]
  · obtain ⟨-, _, _, _, _, e⟩ | ⟨-, _, _, _, -, e⟩ := blinkTick_frame now s <;> simp [e]
  · exact absurd rfl hi
  · obtain ⟨_, _, e, -⟩ := lookupDigit_spec d s
    simp [e]
  · simp

/-- A command that is no accepted press pushes nothing and leaves the current digit on display if it was, or pushes the
one frame that puts it there. -/
theorem exec_pushes_only_to_display (h : exec i s = .next t) (hpress : ∀ b, acceptedOn b i s = false) :
    (t.pixStream = s.pixStream ∧
      (s.lastDisplayed = ⟨true, s.currentDigit⟩ → t.lastDisplayed = ⟨true, t.currentDigit⟩)) ∨
    (s.lastDisplayed ≠ ⟨true, s.currentDigit⟩ ∧ t.lastDisplayed = ⟨true, t.currentDigit⟩ ∧
      ∃ ws, t.pixStream = s.pixStream ++ ws ∧ ws.length = 25) := by
  by_cases hi : i = .renderTick
  · subst hi
    cases h
    by_cases hshown : s.lastDisplayed = ⟨true, s.currentDigit⟩
    · rw [renderDigit_of_displayed hshown]
      exact .inl ⟨rfl, id⟩
    · obtain hd | hd := Nat.lt_or_ge s.currentDigit.toNat 10
      · rw [renderDigit_of_changed hshown hd]
        exact .inr ⟨hshown, rfl, _, rfl, frame_length _ _⟩
      · rw [renderDigit_of_invalid hshown hd]
        exact .inl ⟨rfl, id⟩
  · obtain ⟨hdigit, hlast, hstream⟩ := exec_keeps_display h hpress hi
    exact .inl ⟨hstream, fun hshown => by rw [hlast, hdigit, hshown]⟩

theorem execAll_cons_of_exec (h : exec i s = .next t) (is : List Instr) : execAll (i :: is) s = execAll is t := by
  rw [execAll, h]

/-- A run accepts no press of a button exactly when its first command is none and the rest of the run accepts none. -/
theorem acceptedCount_cons_eq_zero_iff (h : exec i s = .next t) (b : Button) (is : List Instr) :
    acceptedCount b (i :: is) s = 0 ↔ acceptedOn b i s = false ∧ acceptedCount b is t = 0 := by
  rw [acceptedCount, h]
  simp

/-- A run without an accepted press pushes nothing, or one frame where the current digit was not on display before it. -/
theorem execAll_pushes_at_most_one_frame (is : List Instr) (s : State) (hnone : ∀ b, acceptedCount b is s = 0) :
    ∃ t ws, execAll is s = .next t ∧ t.pixStream = s.pixStream ++ ws ∧
      (ws = [] ∨ s.lastDisplayed ≠ ⟨true, s.currentDigit⟩ ∧ ws.length = 25) := by
  induction is generalizing s with
  | nil => exact ⟨s, [], rfl, (List.append_nil _).symm, .inl rfl⟩
  | cons i is ih =>
    obtain ⟨u, hu⟩ := exec_answers i s
    have hsplit (b : Button) := (acceptedCount_cons_eq_zero_iff hu b is).1 (hnone b)
    obtain ⟨t, ws, hrun, hpush, hws⟩ := ih u fun b => (hsplit b).2
    rw [execAll_cons_of_exec hu]
    obtain ⟨hstream, hstays⟩ | ⟨hchanged, hshown, ws₁, hpush₁, hlen⟩ :=
      exec_pushes_only_to_display hu fun b => (hsplit b).1
    · exact ⟨t, ws, hrun, by rw [hpush, hstream], hws.imp_right (And.imp_left (mt hstays))⟩
    · obtain rfl : ws = [] := hws.resolve_right fun hmore => hmore.1 hshown
      exact ⟨t, ws₁, hrun, by rw [hpush, hpush₁, List.append_nil], .inr ⟨hchanged, hlen⟩⟩

/-- Settles O42: the run's invariant is that a frame is pushed only where the current digit is not on display, and each frame
puts it there. -/
theorem rendersWithoutAnAcceptedEdgePushOneFrame : Obligations.RendersWithoutAnAcceptedEdgePushOneFrame := by
  refine ⟨fun s hshown => ?idle, fun is s hA hB => ?run⟩
  case idle => rw [exec_renderTick, renderDigit_of_displayed hshown, respond_spec]
  case run =>
    have hnone (b : Button) : acceptedCount b is s = 0 := by cases b <;> assumption
    obtain ⟨t, ws, hrun, hpush, hws⟩ := execAll_pushes_at_most_one_frame is s hnone
    exact ⟨t, ws, hrun, hpush, hws.imp_right And.right⟩

end Sys2Proof.Machine
end

section
/-! The ILLEGAL words (30_encoding.md R82): which words the decoder refuses, read off the three fields of a word. -/

namespace Sys2Proof

theorem exists_whenZero_eq_error_iff {ok : Bool} {i : Instr} : (∃ e, whenZero ok i = .error e) ↔ ok = false := by
  cases ok <;> simp [whenZero]

/-- The fields of an ILLEGAL word: a reserved opcode, or a non-zero bit where the opcode's format must be 0
(30_encoding.md R76 to R80, R82). -/
def IllegalFields (op sub : BitVec 4) (data : BitVec 64) : Prop :=
  op = 0 ∨ 6 ≤ op.toNat ∨
  (op = 1 ∧ (sub.extractLsb' 1 3 ≠ 0 ∨ data.extractLsb' 32 32 ≠ 0)) ∨
  (op = 2 ∧ (sub ≠ 0 ∨ data.extractLsb' 32 32 ≠ 0)) ∨
  (op = 3 ∧ (sub ≠ 0 ∨ data ≠ 0)) ∨
  (op = 4 ∧ data ≠ 0) ∨
  (op = 5 ∧ sub.extractLsb' 1 3 ≠ 0)

/-- An opcode is reserved, or is one of the five commands' (30_encoding.md R75, R82). -/
theorem opcode_cases : ∀ op : BitVec 4,
    (op = 0 ∨ 6 ≤ op.toNat) ∨ op = 1 ∨ op = 2 ∨ op = 3 ∨ op = 4 ∨ op = 5 := by decide

/-- Every opcode has ILLEGAL words: SUB of ones and DATA of 1 break each of the five formats. -/
theorem illegalFields_ones_one (op : BitVec 4) : IllegalFields op 0xF 1 := by
  unfold IllegalFields
  revert op
  decide

section
variable {w : Cmd}

/-- No command has a reserved opcode (30_encoding.md R82). -/
theorem exists_decode_eq_error_of_op_reserved (hop : cmdOp w = 0 ∨ 6 ≤ (cmdOp w).toNat) :
    ∃ e, decode w = .error e := by
  cases hdec : decode w with
  | error e => exact ⟨e, rfl⟩
  | ok i =>
    rw [cmdOp_of_decode hdec] at hop
    cases i <;> simp [opcodeOf] at hop

/-- The decoder refuses exactly the words with ILLEGAL fields, opcode by opcode. -/
theorem exists_decode_eq_error_iff :
    (∃ e, decode w = .error e) ↔ IllegalFields (cmdOp w) (cmdSub w) (cmdData w) := by
  unfold IllegalFields
  obtain hop | hop | hop | hop | hop | hop := opcode_cases (cmdOp w)
  · exact iff_of_true (exists_decode_eq_error_of_op_reserved hop) (hop.imp_right .inl)
  · rw [decode_of_op_edge hop, exists_whenZero_eq_error_iff, hop]
    simp [imp_iff_not_or]
  · rw [decode_of_op_blinkTick hop, exists_whenZero_eq_error_iff, hop]
    simp [imp_iff_not_or]
  · rw [decode_of_op_renderTick hop, exists_whenZero_eq_error_iff, hop]
    simp [imp_iff_not_or]
  · rw [decode_of_op_lookup hop, exists_whenZero_eq_error_iff, hop]
    simp
  · rw [decode_of_op_encode hop, exists_whenZero_eq_error_iff, hop]
    simp

end

/-- SUB[3:1] is at bits [67:65] of the word (30_encoding.md R70). -/
theorem extractLsb'_cmdSub_flags (w : Cmd) : (cmdSub w).extractLsb' 1 3 = w.extractLsb' 65 3 :=
  extractLsb'_extractLsb' w (by decide)

end Sys2Proof
end

section
/-! What the block does at an ILLEGAL word, and what no step answers at a word that decodes (60_exceptions.md R203). -/

namespace Sys2Proof.Machine

variable {s t : State} {w : Cmd} {rest : List PortEvent}

/-- With rst released and no blink under way a step takes the word presented next, whatever it decodes to. -/
theorem step_of_word (hin : s.inputs = .cmd w :: rest) (hrst : s.rst = false) (hblink : s.blinkPending = none) :
    step s = runWord w { s with inputs := rest } := by
  have hwaits : waitsForBlink (.cmd w) s = false := by simp [waitsForBlink, hblink]
  simp [step, takeNext, hin, hwaits, takeEvent, hrst]

theorem runWord_of_decode_error {e : IllegalWord} (hdec : decode w = .error e) (s : State) :
    runWord w s = .next (respond .illegalCmd 0 s) := by
  rw [runWord, hdec]

theorem statusCode_eq_three_iff (st : Status) : statusCode st = 3 ↔ st = .illegalCmd := by
  cases st <;> decide

/-- A step at a word that decodes answers nothing yet, or with one response that is not ILLEGAL_CMD: the command's own, or
that of a blink which must end first. -/
theorem step_responses_of_decode {i : Instr} (hin : s.inputs = .cmd w :: rest) (hdec : decode w = .ok i)
    (h : step s = .next t) :
    t.responses = s.responses ∨ ∃ st v, st ≠ .illegalCmd ∧ t.responses = s.responses ++ [respWord st v] := by
  obtain ⟨ins, rfl⟩ | ⟨ins, p, -, -, rfl⟩ | ⟨_, -, rfl⟩ | ⟨_, -, rfl⟩ | ⟨_, rest', j, -, -, -, hexec⟩ |
    ⟨w', _, e, hin', -, herr, -⟩ := step_cases s t h
  · exact .inl rfl
  · obtain ⟨_, hdrive⟩ := blinkDrive_frame p { s with inputs := ins }
    exact .inr ⟨.ok, p.fired.setWidth 32, nofun, by rw [hdrive, respond_responses]⟩
  · exact .inl (assertReset_responses _)
  · exact .inl (releaseReset_responses _)
  · exact exec_responses j { s with inputs := rest' } t hexec
  · obtain ⟨⟨⟩, -⟩ := List.cons.inj (hin.symm.trans hin')
    cases hdec.symm.trans herr

/-- Settles O10: the fields decide which words are ILLEGAL; such a word is only responded to; and of all a step can do, only
the answer to an ILLEGAL word carries that status. -/
theorem illegalWordsAreAnsweredAndChangeNothing : Obligations.IllegalWordsAreAnsweredAndChangeNothing := by
  unfold Obligations.IllegalWordsAreAnsweredAndChangeNothing
  refine ⟨fun w => ?words, ?zero, fun op => ?everyOpcode, fun s w rest e hin hrst hblink hdec => ?answer,
    fun s t w rest i hin hdec h => ?converse⟩
  case words =>
    rw [exists_decode_eq_error_iff, IllegalFields, extractLsb'_cmdSub_flags, extractLsb'_cmdData w (by decide)]
    rfl
  case zero => exact exists_decode_eq_error_iff.2 (.inl rfl)
  case everyOpcode =>
    have hfields : IllegalFields (cmdOp (mkCmd op 0xF 1)) (cmdSub (mkCmd op 0xF 1)) (cmdData (mkCmd op 0xF 1)) := by
      simpa only [cmdOp_mkCmd, cmdSub_mkCmd, cmdData_mkCmd] using illegalFields_ones_one op
    obtain ⟨e, hdec⟩ := exists_decode_eq_error_iff.2 hfields
    exact ⟨mkCmd op 0xF 1, e, cmdOp_mkCmd op _ _, hdec⟩
  case answer =>
    rw [step_of_word hin hrst hblink, runWord_of_decode_error hdec, respond_spec]
    rfl
  case converse =>
    obtain hsame | ⟨st, v, hst, hone⟩ := step_responses_of_decode hin hdec h
    · exact ⟨[], by rw [hsame, List.append_nil], nofun⟩
    · refine ⟨[respWord st v], hone, fun r hr => ?_⟩
      rw [List.mem_singleton.1 hr, respStatus_respWord]
      exact mt (statusCode_eq_three_iff st).1 hst

end Sys2Proof.Machine
end

section
/-! The encoder and the decoder undo each other, and the opcode table names the same words (30_encoding.md R73, R76 to R80;
20_memory.md R58). -/

namespace Sys2Proof

theorem bitOfButton_buttonOfBit (b : BitVec 1) : bitOfButton (buttonOfBit b) = b := by
  obtain rfl | rfl := BitVec.eq_zero_or_eq_one b <;> rfl

/-- A field whose upper part must be 0 is 0 above its lower part. -/
theorem zero_append_extractLsb' {m n : Nat} {x : BitVec (m + n)} (hupper : x.extractLsb' n m = 0) :
    (0 : BitVec m) ++ x.extractLsb' 0 n = x := by
  rw [← hupper]
  exact BitVec.extractLsb'_append_extractLsb'

/-- The four colour operands of ENCODE fill DATA (30_encoding.md R80). -/
theorem append_quarters (x : BitVec 64) :
    x.extractLsb' 48 16 ++ x.extractLsb' 32 16 ++ x.extractLsb' 16 16 ++ x.extractLsb' 0 16 = x := by
  simp (disch := decide) only [BitVec.extractLsb'_append_extractLsb'_eq_extractLsb']
  exact BitVec.extractLsb'_eq_self

/-- A word that decodes is built from the fields the decoder read, its must-be-0 fields being 0. -/
theorem encode_of_decode {w : Cmd} {i : Instr} (hdec : decode w = .ok i) : encode i = w := by
  have hop := cmdOp_of_decode hdec
  have hfields := mkCmd_fields w
  cases i with
  | edge b ts =>
    rw [decode_of_op_edge hop, whenZero_eq_ok_iff, Bool.and_eq_true, decide_eq_true_iff, decide_eq_true_iff] at hdec
    obtain ⟨⟨hsub, hdata⟩, hoperands⟩ := hdec
    obtain ⟨rfl, rfl⟩ := Instr.edge.inj hoperands
    rw [encode, bitOfButton_buttonOfBit, zero_append_extractLsb' (m := 3) (n := 1) hsub,
      zero_append_extractLsb' (m := 32) (n := 32) hdata]
    rwa [hop] at hfields
  | blinkTick now =>
    rw [decode_of_op_blinkTick hop, whenZero_eq_ok_iff, Bool.and_eq_true, decide_eq_true_iff, decide_eq_true_iff] at hdec
    obtain ⟨⟨hsub, hdata⟩, hoperands⟩ := hdec
    obtain rfl := Instr.blinkTick.inj hoperands
    rw [encode, zero_append_extractLsb' (m := 32) (n := 32) hdata]
    rwa [hop, hsub] at hfields
  | renderTick =>
    rw [decode_of_op_renderTick hop, whenZero_eq_ok_iff, Bool.and_eq_true, decide_eq_true_iff, decide_eq_true_iff] at hdec
    obtain ⟨⟨hsub, hdata⟩, -⟩ := hdec
    rwa [hop, hsub, hdata] at hfields
  | lookup d =>
    rw [decode_of_op_lookup hop, whenZero_eq_ok_iff, decide_eq_true_iff] at hdec
    obtain ⟨hdata, hoperands⟩ := hdec
    obtain rfl := Instr.lookup.inj hoperands
    rwa [hop, hdata] at hfields
  | encode r g b br m =>
    rw [decode_of_op_encode hop, whenZero_eq_ok_iff, decide_eq_true_iff] at hdec
    obtain ⟨hsub, hoperands⟩ := hdec
    obtain ⟨rfl, rfl, rfl, rfl, rfl⟩ := Instr.encode.inj hoperands
    rw [encode, append_quarters, zero_append_extractLsb' (m := 3) (n := 1) hsub]
    rwa [hop] at hfields

/-! The opcode table (spec/opcode_table.json). -/

theorem tableRow_holds_encode (i : Instr) : (tableRow i).holds (encode i) = true := by
  cases i with
  | edge b ts => exact Laws.TableMatch.edge b ts
  | blinkTick now => exact Laws.TableMatch.blinkTick now
  | renderTick => exact Laws.TableMatch.renderTick
  | lookup d => exact Laws.TableMatch.lookup d
  | encode r g b br m => exact Laws.TableMatch.encode r g b br m

/-- A row is of a command, not of its operands. -/
theorem tableRow_mem_opcodeTable (i : Instr) : tableRow i ∈ opcodeTable := by
  cases i <;> simp [opcodeTable, tableRow]

/-- A row's word decodes to a command of that row. -/
theorem exists_decode_of_row_holds {w : Cmd} {r : TableRow} (hr : r ∈ opcodeTable) (hw : r.holds w = true) :
    ∃ i, decode w = .ok i ∧ tableRow i = r := by
  simp only [opcodeTable, List.mem_cons, List.not_mem_nil, or_false] at hr
  obtain rfl | rfl | rfl | rfl | rfl := hr <;> replace hw := of_decide_eq_true hw
  · exact ⟨_, (decode_eq_edge_iff w _ _).2 ⟨hw, rfl, rfl⟩, rfl⟩
  · exact ⟨_, (decode_eq_blinkTick_iff w _).2 ⟨hw, rfl⟩, rfl⟩
  · exact ⟨_, (decode_eq_renderTick_iff w).2 hw, rfl⟩
  · exact ⟨_, (decode_eq_lookup_iff w _).2 ⟨hw, rfl⟩, rfl⟩
  · exact ⟨_, (decode_eq_encode_iff w _ _ _ _ _).2 ⟨hw, rfl, rfl, rfl, rfl, rfl⟩, rfl⟩

/-- Settles O1: the decoder undoes the encoder, command by command. -/
theorem everyCommandDecodesFromItsEncoding : Obligations.EveryCommandDecodesFromItsEncoding := decode_encode

/-- Settles O2: the encoder undoes the decoder, opcode by opcode. -/
theorem everyDecodedWordIsItsCommandsEncoding : Obligations.EveryDecodedWordIsItsCommandsEncoding :=
  fun _ _ => encode_of_decode

/-- Settles O3: a word that decodes is its command's, so it is a word of its command's row; and since every word of a row
decodes to a command of that row, a word of two rows would decode to two commands. -/
theorem decoderAcceptsExactlyTheTableRows : Obligations.DecoderAcceptsExactlyTheTableRows := by
  refine ⟨fun w => ⟨fun ⟨i, hdec⟩ => ?hasRow, fun ⟨r, hr, hw⟩ => ?decodes⟩, fun w r r' hr hr' hw hw' => ?unique⟩
  case hasRow =>
    rw [← encode_of_decode hdec]
    exact ⟨_, tableRow_mem_opcodeTable i, tableRow_holds_encode i⟩
  case decodes =>
    obtain ⟨i, hdec, -⟩ := exists_decode_of_row_holds hr hw
    exact ⟨i, hdec⟩
  case unique =>
    obtain ⟨i, hdec, hrow⟩ := exists_decode_of_row_holds hr hw
    obtain ⟨i', hdec', hrow'⟩ := exists_decode_of_row_holds hr' hw'
    obtain rfl : i = i' := Except.ok.inj (hdec.symm.trans hdec')
    exact hrow.symm.trans hrow'

/-! The bytes of a command (20_memory.md R58). -/

/-- The nine bytes of a word, put together again, are the word. -/
theorem cmdOfBytes_bytesOfCmd (w : Cmd) : cmdOfBytes (bytesOfCmd w) = some w := by
  simp (disch := decide) only [bytesOfCmd, cmdOfBytes, BitVec.extractLsb'_append_extractLsb'_eq_extractLsb']
  exact congrArg some BitVec.extractLsb'_eq_self

/-- Nine bytes are those of the word they form: each stands above the bytes after it. -/
theorem bytesOfCmd_of_cmdOfBytes {bs : List (BitVec 8)} {w : Cmd} (h : cmdOfBytes bs = some w) : bytesOfCmd w = bs := by
  unfold cmdOfBytes at h
  split at h
  case h_1 b8 b7 b6 b5 b4 b3 b2 b1 b0 =>
    obtain rfl := Option.some.inj h
    simp (disch := decide) only [bytesOfCmd, BitVec.extractLsb'_append_eq_of_le, BitVec.extractLsb'_append_eq_right,
      BitVec.extractLsb'_eq_self, Nat.reduceSub]
  case h_2 => cases h

/-- Settles O8: taking a word into bytes and putting bytes into a word undo each other. -/
theorem serialisedCommandsRoundTrip : Obligations.SerialisedCommandsRoundTrip :=
  ⟨fun w => ⟨rfl, rfl, cmdOfBytes_bytesOfCmd w⟩, fun _ _ => bytesOfCmd_of_cmdOfBytes⟩

end Sys2Proof
end

section
/-! The assembler's operand check (30_encoding.md R83). -/

namespace Sys2Proof.Machine

theorem fits_eq_true_iff {w n : Nat} : fits w n = true ↔ n < 2 ^ w := decide_eq_true_iff

theorem fits_eq_false_iff {w n : Nat} : fits w n = false ↔ 2 ^ w ≤ n := by
  rw [← Bool.not_eq_true, fits_eq_true_iff, Nat.not_lt]

theorem assembleLine_of_wellFormed {l : AsmLine} (hwf : l.wellFormed = true) : assembleLine l = .ok (expandLine l) :=
  if_pos hwf

theorem assembleLine_eq_error_iff {l : AsmLine} :
    assembleLine l = .error .operandOutOfRange ↔ l.wellFormed = false := by
  unfold assembleLine
  cases l.wellFormed <;> simp

/-- ENCODE's check is of each operand against its own field (30_encoding.md R80). -/
theorem encode_wellFormed_iff (r g b br m : Nat) : (AsmLine.encode r g b br m).wellFormed = true ↔
    r < 2 ^ 16 ∧ g < 2 ^ 16 ∧ b < 2 ^ 16 ∧ br < 2 ^ 16 ∧ m < 2 := by
  simp only [AsmLine.wellFormed, Bool.and_eq_true, fits_eq_true_iff, and_assoc]
  rfl

/-- A number that fits its field is the value of the operand assembled. -/
theorem toNat_ofNat_of_fits {w n : Nat} (hn : n < 2 ^ w) : (BitVec.ofNat w n).toNat = n := by
  rw [BitVec.toNat_ofNat, Nat.mod_eq_of_lt hn]

/-- Settles O6: a statement is refused exactly where it is not well formed, which is each operand's bound; an assembled
operand is the number written, taken into its field. -/
theorem assemblerTakesExactlyOperandsInRange : Obligations.AssemblerTakesExactlyOperandsInRange := by
  refine ⟨fun l => assembleLine_eq_error_iff.symm, fun b n hn => ?_, fun n hn => ?_, fun n hn => ?_,
    fun r g b br m hbig => ?_, fun n hn => ?_, fun b n hn => ?_, fun n hn => ?_, rfl, fun n hn => ?_,
    fun r g b br m hr hg hb hbr hm => ?_, fun n hn => ?_⟩
  · exact assembleLine_eq_error_iff.2 (fits_eq_false_iff.2 hn)
  · exact assembleLine_eq_error_iff.2 (fits_eq_false_iff.2 hn)
  · exact assembleLine_eq_error_iff.2 (fits_eq_false_iff.2 hn)
  · rw [assembleLine_eq_error_iff, ← Bool.not_eq_true, encode_wellFormed_iff]
    omega
  · exact assembleLine_eq_error_iff.2 (fits_eq_false_iff.2 hn)
  · exact ⟨_, assembleLine_of_wellFormed (fits_eq_true_iff.2 hn), toNat_ofNat_of_fits hn⟩
  · exact ⟨_, assembleLine_of_wellFormed (fits_eq_true_iff.2 hn), toNat_ofNat_of_fits hn⟩
  · exact ⟨_, assembleLine_of_wellFormed (fits_eq_true_iff.2 hn), toNat_ofNat_of_fits hn⟩
  · exact ⟨_, _, _, _, _, assembleLine_of_wellFormed ((encode_wellFormed_iff r g b br m).2 ⟨hr, hg, hb, hbr, hm⟩),
      toNat_ofNat_of_fits hr, toNat_ofNat_of_fits hg, toNat_ofNat_of_fits hb, toNat_ofNat_of_fits hbr,
      toNat_ofNat_of_fits (w := 1) hm⟩
  · exact ⟨_, assembleLine_tick hn, toNat_ofNat_of_fits hn⟩

/-- Settles O5: the ten texts and words are fixed, so the assembler and the decoder are run on them. -/
theorem exampleWordsDecode : Obligations.ExampleWordsDecode := by
  unfold Obligations.ExampleWordsDecode
  decide

end Sys2Proof.Machine
end

section
/-! What an EDGE writes, field by field (42_input_capture.md R122 to R127), and two edges in turn (R129, 60_exceptions.md
R206). -/

namespace Sys2Proof.Machine

variable {s : State} {b : Button} {ts : Millis}

/-- The response to a press carries the new digit as a number. -/
theorem digitUp_setWidth (d : Digit) : (digitUp d).setWidth 32 = BitVec.ofNat 32 ((d.toNat + 1) % 10) := by
  rw [← BitVec.ofNat_toNat, digitUp_toNat]

theorem digitDown_setWidth (d : Digit) : (digitDown d).setWidth 32 = BitVec.ofNat 32 ((d.toNat + 9) % 10) := by
  rw [← BitVec.ofNat_toNat, digitDown_toNat]

/-- Settles O22: the fields of an accepted edge, in each variant. -/
theorem acceptedEdgeAppliesThePress : Obligations.AcceptedEdgeAppliesThePress := by
  refine ⟨fun s ts hopen => ?pressA, fun s ts hopen => ?pressB⟩
  case pressA =>
    have hgate := (gateRejects_false_iff ts s).2 hopen
    rw [exec_edge, edgeEvent_of_accepted hgate, pressDigit, digitUp_setWidth]
    cases hv : s.cfg.variant with
    | single => rw [acceptPress_indOut_single hv]; rfl
    | multi => rw [acceptPress_indOut_multi hv]; rfl
  case pressB =>
    have hgate := (gateRejects_false_iff ts s).2 hopen
    rw [exec_edge, edgeEvent_of_accepted hgate, pressDigit, digitDown_setWidth]
    cases hv : s.cfg.variant with
    | single => rw [acceptPress_indOut_single hv]; rfl
    | multi => rw [acceptPress_indOut_multi hv]; rfl

/-- last_event_time moves to an edge's time exactly where the gate accepts it (42_input_capture.md R123). -/
theorem edgeEvent_lastEventTime (b : Button) (ts : Millis) (s : State) :
    (edgeEvent b ts s).lastEventTime = if gateRejects ts s then s.lastEventTime else ts := by
  cases hgate : gateRejects ts s with
  | true => simp [edgeEvent_of_rejected hgate]
  | false => simp [edgeEvent_lastEventTime_of_accepted hgate]

/-- A press counts on its own button alone (42_input_capture.md R126). -/
theorem pressCount_edgeEvent_of_accepted (hgate : gateRejects ts s = false) (b' : Button) :
    pressCount b' (edgeEvent b ts s) = if b = b' then pressCount b' s + 1 else pressCount b' s := by
  rw [edgeEvent_of_accepted hgate]
  cases b <;> cases b' <;> rfl

theorem execAll_edge_edge (b b' : Button) (ts ts' : Millis) (s : State) :
    execAll [.edge b ts, .edge b' ts'] s = .next (edgeEvent b' ts' (edgeEvent b ts s)) := rfl

/-- Settles O26: the rejected edge leaves last_event_time at the accepted one's, so the third edge is gated from there. -/
theorem rejectedEdgeDoesNotMoveTheWindow : Obligations.RejectedEdgeDoesNotMoveTheWindow := by
  intro s b0 b1 b2 t0 t1 t2 hopen hinside
  have hlast : (edgeEvent b0 t0 s).lastEventTime = t0 :=
    edgeEvent_lastEventTime_of_accepted ((gateRejects_false_iff t0 s).2 hopen)
  have hgate : gateRejects t1 (edgeEvent b0 t0 s) = true := by
    rwa [gateRejects_iff, hlast, edgeEvent_cfg]
  have hkept : (edgeEvent b1 t1 (edgeEvent b0 t0 s)).lastEventTime = t0 := by
    rw [edgeEvent_lastEventTime, if_pos hgate, hlast]
  refine ⟨_, _, execAll_edge_edge b0 b1 t0 t1 s, exec_edge b2 t2 _, ?_⟩
  simp only [edgeEvent_lastEventTime b2, gateRejects_iff, hkept, edgeEvent_cfg]

/-- An edge at the time of the last accepted one is inside any window of at least 1 ms. -/
theorem gateRejects_same_time (hgate : gateRejects ts s = false) (hwindow : 0 < s.cfg.debounceWindowMs.toNat) :
    gateRejects ts (edgeEvent b ts s) = true := by
  rw [gateRejects_iff, edgeEvent_lastEventTime_of_accepted hgate, edgeEvent_cfg, BitVec.sub_self]
  exact hwindow

/-- Settles O30: the first edge is accepted, so the second is at no distance from it and only answered. -/
theorem firstOfTwoSimultaneousEdgesWins : Obligations.FirstOfTwoSimultaneousEdgesWins := by
  intro s ts hopen hwindow
  have hgate := (gateRejects_false_iff ts s).2 hopen
  have hcount (b b' : Button) := pressCount_edgeEvent_of_accepted (b := b) hgate b'
  refine ⟨⟨_, execAll_edge_edge .A .B ts ts s, ?_⟩, ⟨_, execAll_edge_edge .B .A ts ts s, ?_⟩⟩
  · rw [edgeEvent_of_rejected (gateRejects_same_time hgate hwindow)]
    refine ⟨?_, hcount .A .A, hcount .A .B⟩
    rw [respond_currentDigit, edgeEvent_currentDigit_of_accepted hgate, pressDigit, digitUp_toNat]
  · rw [edgeEvent_of_rejected (gateRejects_same_time hgate hwindow)]
    refine ⟨?_, hcount .B .A, hcount .B .B⟩
    rw [respond_currentDigit, edgeEvent_currentDigit_of_accepted hgate, pressDigit, digitDown_toNat]

/-- Settles O29: at reset last_event_time is 0 and the window 50 ms. -/
theorem firstWindowAfterResetIsClosed : Obligations.FirstWindowAfterResetIsClosed := by
  intro b ts hts
  have hgate : gateRejects ts State.reset = true := by
    rw [gateRejects_iff]
    simpa [State.reset, Config.build, Config.withDefaults] using hts
  exact exec_edge_of_rejected hgate

end Sys2Proof.Machine
end

section
/-! The atomic BLINK_TICK at the same time again, and on the host's 10 ms ticks (43_blink_scheduler.md R140, R149). -/

namespace Sys2Proof.Machine

variable {s : State} {now : Millis}

@[simp] theorem blinkTick_indicatorMode (now : Millis) (s : State) :
    (blinkTick now s).indicatorMode = s.indicatorMode := by
  obtain ⟨-, _, _, _, _, h⟩ | ⟨-, _, _, _, -, h⟩ := blinkTick_frame now s <;> simp [h]

/-- The loop over timers of which none is due does nothing. -/
theorem blinkLoop_of_none_due {m : ModeCode} {ks : List TimerId} {f : BitVec 2}
    (hnone : ∀ k ∈ ks, timerDue k m now s = false) : blinkLoop m now ks f s = (s, f) := by
  induction ks with
  | nil => rfl
  | cons k ks ih =>
    obtain ⟨hk, hks⟩ := List.forall_mem_cons.1 hnone
    rw [blinkLoop_not_due hk, ih hks]

theorem blinkAtomic_of_none_due (hnone : ∀ k ∈ variantTimers s.cfg.variant, timerDue k s.indicatorMode now s = false) :
    blinkAtomic now s = respond .ok 0 s := by
  rw [blinkAtomic, blinkLoop_of_none_due hnone]
  rfl

/-- Every timer of a well-formed configuration has a period of at least 1 ms (43_blink_scheduler.md R140). -/
theorem period_pos_of_wellFormed {c : Config} (hwf : c.wellFormed = true) (k : TimerId) : 0 < (period c k).toNat := by
  simp only [Config.wellFormed, Bool.and_eq_true, decide_eq_true_iff] at hwf
  obtain ⟨⟨hsingle, hred⟩, hgreenBlue⟩ := hwf
  refine Nat.pos_of_ne_zero (mt (BitVec.eq_of_toNat_eq (y := 0)) ?_)
  cases hv : c.variant with
  | single => rwa [period_single hv]
  | multi =>
    cases k with
    | t0 => rwa [period_multi_t0 hv]
    | t1 => rwa [period_multi_t1 hv]

/-- After a tick no timer is due at the tick's time: one that fired has no time since, and one that did not fire was not due
before. -/
theorem timerDue_blinkTick_same_time {k : TimerId} (hwf : s.cfg.wellFormed = true)
    (hk : k ∈ variantTimers s.cfg.variant) : timerDue k s.indicatorMode now (blinkTick now s) = false := by
  have htimer := getTimer_blinkTick (now := now) hk
  cases hdue : timerDue k s.indicatorMode now s with
  | true =>
    rw [hdue] at htimer
    rw [← Bool.not_eq_true, timerDue_iff, htimer, blinkTick_cfg]
    rintro ⟨-, hperiod⟩
    have hpos := period_pos_of_wellFormed hwf k
    rw [timerAfter, if_pos rfl, toggled, BitVec.sub_self] at hperiod
    exact absurd hperiod (Nat.not_le.2 hpos)
  | false =>
    rw [hdue] at htimer
    rw [← hdue, timerDue, timerDue, htimer, blinkTick_cfg]
    rfl

/-- Settles O32: after the first tick no timer is due at its time. -/
theorem sameTimeBlinkFiresOnce : Obligations.SameTimeBlinkFiresOnce := by
  intro s now hwf hatomic
  refine ⟨_, exec_blinkTick now s, ?_⟩
  have hatomic' : (blinkTick now s).cfg.blinkPreemptible = false := by rwa [blinkTick_cfg]
  rw [exec_blinkTick, blinkTick_of_atomic (s := blinkTick now s) hatomic', blinkAtomic_of_none_due, respond_spec]
  intro k hk
  rw [blinkTick_cfg] at hk
  rw [blinkTick_indicatorMode]
  exact timerDue_blinkTick_same_time hwf hk

/-- Settles O39: in GREEN_ONLY timer 1 is due from 333 ms on, which 10 ms ticks reach at 340. -/
theorem greenBlueTimerDriftsToTheHostTick : Obligations.GreenBlueTimerDriftsToTheHostTick := by
  intro s j hv _ hmode hperiod _ hj
  have hmem : TimerId.t1 ∈ variantTimers s.cfg.variant := by rw [hv]; decide
  have hdiff : (s.timer1.lastToggle + BitVec.ofNat 32 (10 * j) - s.timer1.lastToggle).toNat = 10 * j := by
    rw [BitVec.add_comm, BitVec.add_sub_cancel]
    exact toNat_ofNat_of_fits (by omega)
  have huses : usesTimer s.cfg.variant .t1 s.indicatorMode = true := by rw [hv, hmode]; rfl
  have hdue : timerDue .t1 s.indicatorMode (s.timer1.lastToggle + BitVec.ofNat 32 (10 * j)) s = decide (j = 34) := by
    rw [Bool.eq_iff_iff, timerDue_iff, getTimer_t1, hdiff, period_multi_t1 hv, hperiod, decide_eq_true_iff]
    have hcode : (333 : Millis).toNat = 333 := rfl
    simp only [huses, true_or, true_and, hcode]
    omega
  have htimer := getTimer_blinkTick (now := s.timer1.lastToggle + BitVec.ofNat 32 (10 * j)) hmem
  rw [hdue, timerAfter_decide, getTimer_t1, getTimer_t1] at htimer
  refine ⟨_, exec_blinkTick _ s, fun hbefore => ?_, fun hat => ?_⟩
  · rw [htimer, if_neg (by omega)]
  · subst hat
    exact htimer

end Sys2Proof.Machine
end

section
/-! The preemptible BLINK_TICK: its sample, the words taken before its drive, and the drive (43_blink_scheduler.md R148,
70_reset_and_hazards.md R240). -/

namespace Sys2Proof.Machine

variable {s : State} {p : BlinkPending} {now : Millis}

theorem blinkTick_of_preemptible (hpre : s.cfg.blinkPreemptible = true) : blinkTick now s = blinkSample now s :=
  if_pos hpre

/-- The same state in a build without BLINK_PREEMPTIBLE. -/
def atomicTwin (s : State) : State := { s with cfg := { s.cfg with blinkPreemptible := false } }

theorem blinkTick_atomicTwin (now : Millis) (s : State) : blinkTick now (atomicTwin s) = blinkAtomic now (atomicTwin s) :=
  blinkTick_of_atomic rfl

/-- Whether a timer is due does not depend on BLINK_PREEMPTIBLE. -/
theorem timerDue_atomicTwin (k : TimerId) (m : ModeCode) (now : Millis) (s : State) :
    timerDue k m now (atomicTwin s) = timerDue k m now s := by
  cases k <;> rfl

/-- The sample leaves the timers as the atomic tick does, and keeps for its drive the mask that the atomic tick answers. -/
theorem blinkTick_preemptible_eq (now : Millis) (hpre : s.cfg.blinkPreemptible = true) :
    ∃ f : BitVec 2, (blinkTick now (atomicTwin s)).responses = s.responses ++ [respWord .ok (f.setWidth 32)] ∧
      blinkTick now s = { s with
        timer0 := (blinkTick now (atomicTwin s)).timer0
        timer1 := (blinkTick now (atomicTwin s)).timer1
        blinkPending := some ⟨s.indicatorMode, f⟩ } := by
  rw [blinkTick_of_preemptible hpre, blinkTick_atomicTwin]
  cases hv : s.cfg.variant with
  | single =>
    refine ⟨firedMask (timerDue .t0 s.indicatorMode now s) false, ?_⟩
    rw [blinkSample_single now s hv, blinkAtomic_single now (atomicTwin s) hv, timerDue_atomicTwin]
    exact ⟨rfl, rfl⟩
  | multi =>
    refine ⟨firedMask (timerDue .t0 s.indicatorMode now s) (timerDue .t1 s.indicatorMode now s), ?_⟩
    rw [blinkSample_multi now s hv, blinkAtomic_multi now (atomicTwin s) hv, timerDue_atomicTwin, timerDue_atomicTwin]
    exact ⟨rfl, rfl⟩

/-- Settles O35: the sample and the atomic tick of the same state test and toggle alike. -/
theorem preemptibleBlinkSamplesWithoutDriving : Obligations.PreemptibleBlinkSamplesWithoutDriving := by
  intro s now hpre
  obtain ⟨f, hanswer, hsample⟩ := blinkTick_preemptible_eq now hpre
  exact ⟨_, _, ⟨s.indicatorMode, f⟩, exec_blinkTick now s, exec_blinkTick now (atomicTwin s), hsample, rfl, hanswer⟩

/-- Bit k of the fired mask (30_encoding.md R74). -/
theorem and_firedBit_ne_zero_iff (f : BitVec 2) :
    (f &&& firedBit .t0 ≠ 0 ↔ f.getLsbD 0 = true) ∧ (f &&& firedBit .t1 ≠ 0 ↔ f.getLsbD 1 = true) := by
  revert f
  decide

/-- The bits a drive leaves in MULTI: each pending timer's phase on the channel of the mode drawn for it. -/
theorem pendingOut_multi (hv : s.cfg.variant = .multi) (out : BitVec 3) :
    (pendingOut p .t1 s (pendingOut p .t0 s out)).getLsbD 0 =
      (if p.fired.getLsbD 0 ∧ drawnMode p .t0 s = 0 then s.timer0.phase else out.getLsbD 0) ∧
    (pendingOut p .t1 s (pendingOut p .t0 s out)).getLsbD 1 =
      (if p.fired.getLsbD 1 ∧ drawnMode p .t1 s = 1 then s.timer1.phase else out.getLsbD 1) ∧
    (pendingOut p .t1 s (pendingOut p .t0 s out)).getLsbD 2 =
      (if p.fired.getLsbD 1 ∧ drawnMode p .t1 s = 2 then s.timer1.phase else out.getLsbD 2) := by
  obtain ⟨hbit0, hbit1⟩ := and_firedBit_ne_zero_iff p.fired
  simp only [pendingOut_eq, hv, outAfter_multi_t0, outAfter_multi_t1, decide_eq_true_iff, hbit0, hbit1, getTimer_t0,
    getTimer_t1, and_self]

/-- The bits a drive leaves in SINGLE. -/
theorem pendingOut_single (hv : s.cfg.variant = .single) (out : BitVec 3) :
    (pendingOut p .t0 s out).getLsbD 0 =
      (if p.fired.getLsbD 0 ∧ drawnMode p .t0 s = 1 then s.timer0.phase else out.getLsbD 0) ∧
    pendingOut p .t0 s out &&& 6 = out &&& 6 := by
  obtain ⟨hbit0, -⟩ := and_firedBit_ne_zero_iff p.fired
  simp only [pendingOut_eq, hv, outAfter_single, decide_eq_true_iff, hbit0, getTimer_t0, and_self]

/-- With nothing presented and rst released a blink under way ends at once (log 8). -/
theorem step_of_idle (hin : s.inputs = []) (hrst : s.rst = false) : step s = .next (finishBlink s) := by
  simp [step, takeNext, hin, hrst]

theorem finishBlink_of_pending (hp : s.blinkPending = some p) : finishBlink s = blinkDrive p s := by
  simp [finishBlink, hp]

/-- Settles O36: the next step is the drive, and each timer's mode is the one drawn for it. -/
theorem preemptedBlinkDrivesEitherChannelSet : Obligations.PreemptedBlinkDrivesEitherChannelSet := by
  intro s p hrst hp hin
  refine ⟨blinkDrive p s, drawnMode p .t0 s, drawnMode p .t1 s, ?_, drawnMode_cases p .t0 s, drawnMode_cases p .t1 s, ?_,
    fun hv => ?_, fun hv => ?_⟩
  · rw [step_of_idle hin hrst, finishBlink_of_pending hp]
  · obtain ⟨out, hdrive⟩ := blinkDrive_frame p s
    rw [hdrive]
    rfl
  · rw [blinkDrive_multi p s hv]
    exact pendingOut_multi hv s.indOut
  · rw [blinkDrive_single p s hv]
    exact pendingOut_single hv s.indOut

/-- A word that is no EDGE waits while a blink under way ends (43_blink_scheduler.md R148; log 8). -/
theorem step_of_waiting_word {w : Cmd} {rest : List PortEvent} (hin : s.inputs = .cmd w :: rest) (hrst : s.rst = false)
    (hp : s.blinkPending = some p) (hword : ∀ b ts, decode w ≠ .ok (.edge b ts)) :
    step s = .next (blinkDrive p s) := by
  have hedge : isEdgeWord w = false := by
    unfold isEdgeWord
    split
    · next b ts hdec => exact absurd hdec (hword b ts)
    · rfl
  have hwaits : waitsForBlink (.cmd w) s = true := by simp [waitsForBlink, hp, hrst, hedge]
  rw [step, takeNext, hin]
  simp only [hwaits, if_true, finishBlink_of_pending hp]

/-- Settles O37: an EDGE is run and leaves the blink as it is; at any other word the step is the drive, which takes nothing
from the port. -/
theorem onlyEdgesPreemptABlink : Obligations.OnlyEdgesPreemptABlink := by
  intro s p w rest hp hrst hin
  refine ⟨fun b ts hdec => ?_, fun hword => ?_⟩
  · obtain ⟨t, ht⟩ := exec_answers (.edge b ts) { s with inputs := rest }
    obtain ⟨-, hrest, hblink⟩ := exec_keeps_port ht
    exact ⟨t, (step_of_decode hin hrst (.inr ⟨b, ts, rfl⟩) hdec).trans ht, ht, (hblink nofun).trans hp, hrest⟩
  · obtain ⟨out, hdrive⟩ := blinkDrive_frame p s
    refine ⟨_, step_of_waiting_word hin hrst hp hword, ?_⟩
    rw [hdrive]
    exact ⟨rfl, rfl, rfl⟩

/-! A blink sampled before a press and driven after it (70_reset_and_hazards.md R240). -/

/-- s after the sample of a blink in RED_ONLY: timer 0 toggled, and alone pending. -/
def redSampled (now : Millis) (rest : List PortEvent) (s : State) : State :=
  { s with inputs := rest, timer0 := toggled now s.timer0, blinkPending := some ⟨s.indicatorMode, 1⟩ }

/-- In RED_ONLY a preemptible BLINK_TICK, with R's period passed, samples timer 0 alone. -/
theorem step_samples_red {rest : List PortEvent} (hin : s.inputs = .cmd (encode (.blinkTick now)) :: rest)
    (hrst : s.rst = false) (hblink : s.blinkPending = none) (hv : s.cfg.variant = .multi)
    (hpre : s.cfg.blinkPreemptible = true) (hfree : s.cfg.freeRunningTimers = false)
    (hmode : s.indicatorMode = modeRedOnly)
    (hperiod : s.cfg.periodRMs.toNat ≤ (now - s.timer0.lastToggle).toNat) :
    step s = .next (redSampled now rest s) := by
  have hdue0 : timerDue .t0 s.indicatorMode now { s with inputs := rest } = true := by
    rw [timerDue_iff_of_not_freeRunning (s := { s with inputs := rest }) _ hfree, hv, usesTimer_multi_t0_iff,
      period_multi_t0 hv]
    exact ⟨hmode, hperiod⟩
  have hdue1 : timerDue .t1 s.indicatorMode now { s with inputs := rest } = false := by
    rw [← Bool.not_eq_true, timerDue_iff_of_not_freeRunning (s := { s with inputs := rest }) _ hfree, hv, hmode]
    exact fun hdue => absurd hdue.1 (by decide)
  rw [step_of_encode hin hrst hblink, exec_blinkTick, blinkTick_of_preemptible (s := { s with inputs := rest }) hpre,
    blinkSample_multi now { s with inputs := rest } hv, hdue0, hdue1]
  rfl

/-- An accepted EDGE taken under a blink: in MULTI its mode's channel alone is on, and all that the drive reads of the blink
is kept. -/
theorem step_of_edge_under_blink {b : Button} {ts : Millis} {rest : List PortEvent} (hv : s.cfg.variant = .multi)
    (hrst : s.rst = false) (hp : s.blinkPending = some p) (hin : s.inputs = .cmd (encode (.edge b ts)) :: rest)
    (hgate : gateRejects ts s = false) :
    ∃ t, step s = .next t ∧ t.cfg = s.cfg ∧ t.rst = false ∧ t.inputs = rest ∧ t.blinkPending = some p ∧
      t.draws = s.draws ∧ t.timer0 = s.timer0 ∧ t.indicatorMode = pressMode .multi b ∧
      t.indOut = modeBits .multi (pressMode .multi b) := by
  have hstep := step_of_decode hin hrst (.inr ⟨b, ts, rfl⟩) (decode_encode _)
  have hpress := edgeEvent_of_accepted (s := { s with inputs := rest }) (b := b) hgate
  refine ⟨_, hstep.trans (exec_edge b ts _), ?_⟩
  rw [hpress, acceptPress_indOut_multi (s := { s with inputs := rest }) hv]
  simp [hrst, hp, hv]

/-- At the moment of a blink's drive, with rst released, the blink under way ends. -/
theorem step_of_blinkDrive {rest : List PortEvent} (hin : s.inputs = .blinkDrive :: rest) (hrst : s.rst = false)
    (hp : s.blinkPending = some p) : step s = .next (blinkDrive p { s with inputs := rest }) := by
  simp [step, takeNext, hin, waitsForBlink, takeEvent, hrst, finishBlink, hp]

/-- R's pending drive with G on, after a press chose GREEN_ONLY: R is driven too where the draw takes the mode sampled. -/
theorem blinkDrive_stale_red_indOut (hmode0 : p.mode = modeRedOnly) (hfired : p.fired = 1)
    (hv : s.cfg.variant = .multi) (hmode : s.indicatorMode = modeGreenOnly)
    (hphase : s.timer0.phase = true) (hout : s.indOut = 2) :
    (blinkDrive p s).indOut = if Config.blinkDraw s.draws .t0 then 3 else 2 := by
  rw [blinkDrive_multi _ s hv, respond_indOut, hout]
  simp only [pendingOut_eq, hv, getTimer_t0, hphase, drawnMode, hmode, hmode0, hfired]
  cases Config.blinkDraw s.draws .t0 <;> rfl

/-- Settles O38: the sample leaves timer 0 pending, the press turns G on alone and keeps the blink, and the drive's one draw
decides whether R comes on beside it. -/
theorem staleBlinkDriveMayLightTwoChannels : Obligations.StaleBlinkDriveMayLightTwoChannels := by
  intro s now ts hv hpre hfree hrst hblink hmode hphase hperiod hwindow hin
  have step1 := step_samples_red hin hrst hblink hv hpre hfree hmode hperiod
  obtain ⟨s2, step2, hcfg, hrst2, hin2, hp2, hdraws, htimer, hmode2, hout2⟩ :=
    step_of_edge_under_blink (s := redSampled now [.cmd (encode (.edge .A ts)), .blinkDrive] s) hv hrst rfl rfl
      ((gateRejects_false_iff ts _).2 hwindow)
  have step3 := step_of_blinkDrive hin2 hrst2 hp2
  refine ⟨_, ((run_succ_of_step step1 2).trans (run_succ_of_step step2 1)).trans (run_succ_of_step step3 0), ?_, ?_⟩
  · have hv2 : s2.cfg.variant = .multi := by rw [hcfg]; exact hv
    have hphase2 : s2.timer0.phase = true := by
      rw [htimer]
      exact congrArg not hphase
    have hdraws2 : s2.draws = s.draws := hdraws
    rw [← hdraws2]
    exact blinkDrive_stale_red_indOut (s := { s2 with inputs := [] }) hmode rfl hv2 hmode2 hphase2 hout2
  · obtain ⟨out, hdrive⟩ := blinkDrive_frame ⟨s.indicatorMode, 1⟩ { s2 with inputs := [] }
    rw [hdrive]
    rfl

end Sys2Proof.Machine
end

section
/-! What each presentation does to the block: a step always answers, a command taken is answered once, and the reset input
(60_exceptions.md R200, 70_reset_and_hazards.md R230, R231). -/

namespace Sys2Proof.Machine

variable {s t : State} {i : Instr} {rest : List PortEvent}

theorem runWord_answers (w : Cmd) (s : State) : ∃ t, runWord w s = .next t := by
  unfold runWord
  split
  · exact exec_answers _ s
  · exact ⟨_, rfl⟩

theorem takeEvent_answers (e : PortEvent) (s : State) : ∃ t, takeEvent e s = .next t := by
  cases e with
  | cmd w =>
    simp only [takeEvent]
    split
    · exact ⟨_, rfl⟩
    · exact runWord_answers w s
  | rst level => cases level <;> exact ⟨_, rfl⟩
  | blinkDrive => exact ⟨_, rfl⟩

/-- No step faults or is refused (60_exceptions.md R200). -/
theorem step_answers (s : State) : ∃ t, step s = .next t := by
  unfold step takeNext
  split
  · exact ⟨_, rfl⟩
  · split
    · exact ⟨_, rfl⟩
    · exact takeEvent_answers _ _

/-- A command answers once, but for a blink that is only sampled (43_blink_scheduler.md R148). -/
theorem exec_one_response (h : exec i s = .next t)
    (hwhole : s.cfg.blinkPreemptible = false ∨ ∀ now, i ≠ .blinkTick now) : ∃ r, t.responses = s.responses ++ [r] := by
  obtain ⟨b, ts, -, rfl⟩ | ⟨now, rfl, rfl⟩ | ⟨-, rfl⟩ | ⟨d, -, rfl⟩ | ⟨r, g, b, br, m, -, rfl⟩ := exec_next_cases i s t h
  · obtain ⟨-, e⟩ | ⟨-, e⟩ := edgeEvent_spec b ts s <;> exact ⟨_, by simp [e]; rfl⟩
  · have hatomic : s.cfg.blinkPreemptible = false := hwhole.resolve_right fun hne => hne now rfl
    obtain ⟨-, _, _, _, v, e⟩ | ⟨hpre, -⟩ := blinkTick_frame now s
    · exact ⟨respWord .ok v, by rw [e, respond_responses]⟩
    · simp [hatomic] at hpre
  · obtain ⟨-, e⟩ | ⟨-, -, e⟩ | ⟨-, _, -, e⟩ := renderDigit_spec s.currentDigit s <;> exact ⟨_, by rw [e]; rfl⟩
  · obtain ⟨st, v, e, -⟩ := lookupDigit_spec d s
    exact ⟨respWord st v, by rw [e, respond_responses]⟩
  · exact ⟨_, respond_responses s .ok _⟩

/-- Settles O11: the answer to a word that decodes is its command's, and to any other ILLEGAL_CMD; the blink's is at its
drive. -/
theorem everyStepCompletesWithOneResponsePerCommand : Obligations.EveryStepCompletesWithOneResponsePerCommand := by
  refine ⟨step_answers, fun s w rest hin hrst hfirst hwhole => ?taken, fun s now hpre => ?sampled,
    fun s p hin hrst hp => ?driven⟩
  case taken =>
    cases hdec : decode w with
    | ok i =>
      rw [hdec] at hfirst hwhole
      simp only [Except.ok.injEq, ne_eq] at hfirst hwhole
      obtain ⟨t, ht⟩ := exec_answers i { s with inputs := rest }
      obtain ⟨r, hr⟩ := exec_one_response ht hwhole
      exact ⟨t, r, (step_of_decode hin hrst hfirst hdec).trans ht, (exec_keeps_port ht).2.1, hr⟩
    | error e =>
      have hblink : s.blinkPending = none := hfirst.resolve_right fun ⟨b, ts, hedge⟩ => by simp [hdec] at hedge
      exact ⟨_, _, (step_of_word hin hrst hblink).trans (runWord_of_decode_error hdec _), rfl, rfl⟩
  case sampled =>
    obtain ⟨hatomic, -⟩ | ⟨-, _, _, p, -, e⟩ := blinkTick_frame now s
    · simp [hpre] at hatomic
    · exact ⟨_, p, exec_blinkTick now s, by rw [e], by rw [e]⟩
  case driven =>
    obtain ⟨out, hdrive⟩ := blinkDrive_frame p s
    refine ⟨_, respWord .ok (p.fired.setWidth 32), (step_of_idle hin hrst).trans (by rw [finishBlink_of_pending hp]), ?_⟩
    rw [hdrive]
    exact ⟨rfl, rfl⟩

theorem step_of_assert (hin : s.inputs = .rst true :: rest) : step s = .next (assertReset { s with inputs := rest }) := by
  simp [step, takeNext, hin, waitsForBlink, takeEvent]

theorem step_of_release (hin : s.inputs = .rst false :: rest) :
    step s = .next (releaseReset { s with inputs := rest }) := by
  simp [step, takeNext, hin, waitsForBlink, takeEvent]

/-- While rst is asserted a word is taken and ignored (70_reset_and_hazards.md R230). -/
theorem step_of_word_in_reset {w : Cmd} (hin : s.inputs = .cmd w :: rest) (hrst : s.rst = true) :
    step s = .next { s with inputs := rest } := by
  simp [step, takeNext, hin, waitsForBlink, takeEvent, hrst]

/-- Settles O12: the steps at the three kinds of presentation, of which only a level of the reset input moves rst. -/
theorem resetInputResetsAndTakesNoCommand : Obligations.ResetInputResetsAndTakesNoCommand := by
  refine ⟨fun s rest hin => ⟨_, step_of_assert hin, ?values⟩, fun s w rest => step_of_word_in_reset,
    fun s rest => step_of_release, fun i s t h => (exec_keeps_port h).1, ?powerOn⟩
  case values => exact ⟨rfl, rfl, rfl, rfl, rfl, rfl, rfl, rfl, rfl, rfl, rfl, rfl, rfl, rfl⟩
  case powerOn =>
    exact (run_succ_of_step (step_of_assert rfl) 1).trans (run_succ_of_step (step_of_release rfl) 0)

/-- Settles O13. -/
theorem resetStateHoldsTheStatedValues : Obligations.ResetStateHoldsTheStatedValues :=
  ⟨rfl, rfl, rfl, rfl, rfl, rfl, rfl, rfl, rfl, rfl⟩

/-- Settles O14: with no blink under way there is none to end. -/
theorem idleBlockHoldsItsState : Obligations.IdleBlockHoldsItsState := by
  intro s hin hblink
  have hfinish : finishBlink s = s := by rw [finishBlink, hblink]
  simp [step, takeNext, hin, hfinish]

theorem decode_fetchWord {n : Nat} (h : decodeTableWord 72 n = some i) : decode (fetchWord 72 n) = .ok i := by
  unfold decodeTableWord at h
  cases hdec : decode (fetchWord 72 n) with
  | error e => simp [hdec, Except.toOption] at h
  | ok j => simpa [hdec, Except.toOption] using h

/-- Settles O9: both clauses are the step at a word that decodes; withFetchWord puts such a word first. -/
theorem stepRunsTheDecodedCommand : Obligations.StepRunsTheDecodedCommand :=
  ⟨fun _ _ _ _ hin hrst hblink hdec => step_of_decode hin hrst hblink hdec,
    fun s n _ h => step_of_decode (s := s.withFetchWord 72 n) (rest := s.inputs) rfl rfl (.inl rfl) (decode_fetchWord h)⟩

end Sys2Proof.Machine
end

section
/-! The encoder's corner values, and what a render's frame is made of (41_pixel_encoder.md section 1; 44_render_driver.md
R162, R167, R168). -/

namespace Sys2Proof.Machine

variable {s : State}

/-- Settles O20: the products are evaluated at the named codes, and a factor 0 makes any of them 0. -/
theorem encoderCornerValues : Obligations.EncoderCornerValues :=
  ⟨by decide, by decide, by decide, by decide, fun c m => by simp [comp], fun br m => by simp [comp]⟩

/-- The frame pushed where nothing is displayed yet is that of the digit's font entry. -/
theorem renderDigit_of_none_displayed {d : Digit} (hnone : s.lastDisplayed.valid = false) (hd : d.toNat < 10) :
    renderDigit d s = respond .ok 25
      { s with pixStream := s.pixStream ++ frame s.cfg s.cfg.font[d.toNat], lastDisplayed := ⟨true, d⟩ } := by
  refine renderDigit_of_changed (fun hshown => ?_) hd
  rw [hshown] at hnone
  cases hnone

/-- Settles O43: at reset nothing is displayed and the digit is 0. -/
theorem firstRenderShowsDigitZero : Obligations.FirstRenderShowsDigitZero := by
  have hrender := renderDigit_of_none_displayed (s := State.reset) (d := 0) rfl (by decide)
  refine ⟨_, exec_renderTick _, ?_⟩
  rw [show State.reset.currentDigit = 0 from rfl, hrender]
  exact ⟨rfl, frame_length _ _, rfl, fun i hi => frame_getElem? _ _ hi⟩

/-- Word i of the first frame on an empty stream. -/
theorem renderDigit_pixStream_getElem? {d i : Nat} (hd : d < 10) (hi : i < 25)
    (hdigit : s.currentDigit = BitVec.ofNat 4 d) (hnone : s.lastDisplayed.valid = false) (hempty : s.pixStream = []) :
    (renderDigit s.currentDigit s).pixStream[i]? = some (litWord s.cfg s.cfg.font[d] i) := by
  have hnat : s.currentDigit.toNat = d := by
    rw [hdigit]
    exact toNat_ofNat_of_fits (by omega)
  subst hnat
  rw [renderDigit_of_none_displayed hnone hd, respond_pixStream, hempty, List.nil_append, frame_getElem? _ _ hi]

/-- A word of a frame is read from one element of the pattern, the fixed colour and the brightness. -/
theorem litWord_congr {c c' : Config} {pat pat' : Pattern} {i : Nat} (hcolor : c.fixedColor = c'.fixedColor)
    (hbright : c.renderBrightness = c'.renderBrightness) (helement : pat.getLsbD i = pat'.getLsbD i) :
    litWord c pat i = litWord c' pat' i := by
  rw [litWord, litWord, onWord, onWord, hcolor, hbright, helement]

/-- Settles O44: word i of either frame is the lit word or 0 by element i, which the two patterns share. -/
theorem frameLanesAreIndependent : Obligations.FrameLanesAreIndependent := by
  intro s s' d i hd hi hdigit hdigit' hnone hnone' hempty hempty' hcolor hbright helement
  refine ⟨_, _, litWord s.cfg s.cfg.font[d] i, exec_renderTick s, exec_renderTick s', ?_, ?_⟩
  · exact renderDigit_pixStream_getElem? hd hi hdigit hnone hempty
  · rw [litWord_congr hcolor hbright helement]
    exact renderDigit_pixStream_getElem? hd hi hdigit' hnone' hempty'

end Sys2Proof.Machine
end

section
/-! The invariants of the stream and of the responses (20_memory.md R54, 30_encoding.md R74). -/

namespace Sys2Proof.Machine

variable {s t : State}

theorem litWord_eq_onWord_or_zero (c : Config) (pat : Pattern) (i : Nat) :
    litWord c pat i = onWord c ∨ litWord c pat i = 0 := by
  unfold litWord
  split
  · exact .inl rfl
  · exact .inr rfl

theorem mem_frame {c : Config} {pat : Pattern} {w : Pixel} (hw : w ∈ frame c pat) : w = onWord c ∨ w = 0 := by
  rw [frame_eq_map_litWord, List.mem_map] at hw
  obtain ⟨i, -, rfl⟩ := hw
  exact litWord_eq_onWord_or_zero c pat i

/-- Settles O46: a step leaves the stream or appends a frame, which is 25 words, each the lit word or 0. -/
theorem everyStepKeepsTheStreamOfFrames : Obligations.EveryStepKeepsTheStreamOfFrames := by
  intro s t ⟨hwhole, hwords⟩ h
  unfold GoodStream
  rw [step_cfg h]
  obtain hsame | ⟨w, rest, pat, -, -, -, hpush⟩ := step_pixStream h
  · rw [hsame]
    exact ⟨hwhole, hwords⟩
  · rw [hpush, List.length_append, frame_length, List.forall_mem_append]
    exact ⟨(Nat.add_mod_right _ 25).trans hwhole, hwords, fun _ => mem_frame⟩

/-- A step answers nothing, or with one response of a named status. -/
theorem step_responses (h : step s = .next t) :
    t.responses = s.responses ∨ ∃ st v, t.responses = s.responses ++ [respWord st v] := by
  obtain ⟨ins, rfl⟩ | ⟨ins, p, -, -, rfl⟩ | ⟨_, -, rfl⟩ | ⟨_, -, rfl⟩ | ⟨w, rest, i, -, -, -, hexec⟩ |
    ⟨w, rest, e, -, -, -, rfl⟩ := step_cases s t h
  · exact .inl rfl
  · obtain ⟨_, hdrive⟩ := blinkDrive_frame p { s with inputs := ins }
    exact .inr ⟨.ok, p.fired.setWidth 32, by rw [hdrive, respond_responses]⟩
  · exact .inl (assertReset_responses _)
  · exact .inl (releaseReset_responses _)
  · exact (exec_responses i { s with inputs := rest } t hexec).imp_right fun ⟨st, v, _, hone⟩ => ⟨st, v, hone⟩
  · exact .inr ⟨.illegalCmd, 0, respond_responses _ _ _⟩

theorem statusCode_le_three (st : Status) : (statusCode st).toNat ≤ 3 := by cases st <;> decide

/-- Settles O47: the response a step may add has the code of a named status. -/
theorem everyStepKeepsNamedStatuses : Obligations.EveryStepKeepsNamedStatuses := by
  intro s t hgood h
  unfold GoodResponses
  obtain hsame | ⟨st, v, hone⟩ := step_responses h
  · rwa [hsame]
  · rw [hone, List.forall_mem_append, List.forall_mem_singleton, respStatus_respWord]
    exact ⟨hgood, statusCode_le_three st⟩

end Sys2Proof.Machine
end

section
/-! R35's invariant (10_state.md section 5), operation by operation: what each leaves of the fields Good reads. -/

namespace Sys2Proof.Machine

variable {s t : State} {now : Millis}

/-- Good reads seven fields: a state that agrees on them is good too. -/
theorem Good.congr (hgood : Good s) (hcfg : t.cfg = s.cfg) (hdigit : t.currentDigit = s.currentDigit)
    (hmode : t.indicatorMode = s.indicatorMode) (hshown : t.lastDisplayed = s.lastDisplayed) (hout : t.indOut = s.indOut)
    (hblink : t.blinkPending = s.blinkPending) (htimer : t.timer1 = s.timer1) : Good t where
  digit := by rw [hdigit]; exact hgood.digit
  mode := by rw [hcfg, hmode]; exact hgood.mode
  displayed := by rw [hshown]; exact hgood.displayed
  single := by rw [hcfg, hout]; exact hgood.single
  selected := by rw [hcfg, hout, hmode]; exact hgood.selected
  atomic := by rw [hcfg, hblink]; exact hgood.atomic
  sampled := by rw [hcfg, hblink, hmode]; exact hgood.sampled
  oneTimer := by rw [hcfg, htimer]; exact hgood.oneTimer

theorem Good.withInputs (hgood : Good s) (ins : List PortEvent) : Good { s with inputs := ins } :=
  hgood.congr rfl rfl rfl rfl rfl rfl rfl

theorem Good.respond (hgood : Good s) (st : Status) (v : Word32) : Good (respond st v s) :=
  hgood.congr rfl rfl rfl rfl rfl rfl rfl

theorem Good.releaseReset (hgood : Good s) : Good (releaseReset s) := hgood.congr rfl rfl rfl rfl rfl rfl rfl

/-- The values of R231 are good whatever was before them. -/
theorem good_assertReset (s : State) : Good (assertReset s) where
  digit := Nat.zero_le 9
  mode := by
    rw [assertReset_cfg, assertReset_indicatorMode]
    cases s.cfg.variant <;> rfl
  displayed := nofun
  single _ := BitVec.zero_and
  selected _ := BitVec.zero_and
  atomic _ := rfl
  sampled := nofun
  oneTimer _ := rfl

/-! EDGE. -/

@[simp] theorem edgeEvent_lastDisplayed (b : Button) (ts : Millis) (s : State) :
    (edgeEvent b ts s).lastDisplayed = s.lastDisplayed := by
  obtain ⟨-, h⟩ | ⟨-, h⟩ := edgeEvent_spec b ts s <;> simp [h]

@[simp] theorem edgeEvent_blinkPending (b : Button) (ts : Millis) (s : State) :
    (edgeEvent b ts s).blinkPending = s.blinkPending := by
  obtain ⟨-, h⟩ | ⟨-, h⟩ := edgeEvent_spec b ts s <;> simp [h]

@[simp] theorem edgeEvent_draws (b : Button) (ts : Millis) (s : State) : (edgeEvent b ts s).draws = s.draws := by
  obtain ⟨-, h⟩ | ⟨-, h⟩ := edgeEvent_spec b ts s <;> simp [h]

/-- The digit after a press is decimal (42_input_capture.md R124). -/
theorem pressDigit_le_nine (b : Button) (d : Digit) : (pressDigit b d).toNat ≤ 9 := by
  cases b with
  | A => rw [pressDigit, digitUp_toNat]; omega
  | B => rw [pressDigit, digitDown_toNat]; omega

/-- SINGLE's levels after a press: LED on, selected by ACTIVE, and nothing on the hardwired bits. -/
theorem or_led_selected : ∀ out : BitVec 3, out &&& 6 = 0 →
    (out ||| 1) &&& 6 = 0 ∧ (out ||| 1) &&& ~~~(modeBits .single modeActive) = 0 := by decide

theorem Good.edgeEvent (hgood : Good s) (b : Button) (ts : Millis) : Good (edgeEvent b ts s) := by
  cases hgate : gateRejects ts s with
  | true =>
    rw [edgeEvent_of_rejected hgate]
    exact hgood.respond _ _
  | false =>
    have hmode := edgeEvent_indicatorMode_of_accepted (b := b) hgate
    have hout := edgeEvent_indOut_of_accepted (b := b) hgate
    have hcfg := edgeEvent_cfg s b ts
    refine ⟨?digit, ?mode, ?displayed, fun hv => ?single, fun hsel => ?selected, ?atomic, fun p hp hv _ => ?sampled,
      ?oneTimer⟩
    case digit =>
      rw [edgeEvent_currentDigit_of_accepted hgate]
      exact pressDigit_le_nine b _
    case mode => rw [hcfg, hmode, namedMode_pressMode]
    case displayed =>
      rw [edgeEvent_lastDisplayed]
      exact hgood.displayed
    case single =>
      rw [hcfg] at hv
      rw [hout, acceptPress_indOut_single hv]
      exact (or_led_selected _ (hgood.single hv)).1
    case selected =>
      rw [hout, hmode, hcfg]
      cases hv : s.cfg.variant with
      | single =>
        rw [acceptPress_indOut_single hv]
        exact (or_led_selected _ (hgood.single hv)).2
      | multi => rw [acceptPress_indOut_multi hv, BitVec.and_not_self]
    case atomic =>
      rw [hcfg, edgeEvent_blinkPending]
      exact hgood.atomic
    case sampled => rw [hmode, ← hcfg, hv, pressMode]
    case oneTimer =>
      rw [hcfg, edgeEvent_timer1]
      exact hgood.oneTimer

/-! BLINK_TICK. -/

@[simp] theorem blinkTick_currentDigit (now : Millis) (s : State) :
    (blinkTick now s).currentDigit = s.currentDigit := by
  obtain ⟨-, _, _, _, _, h⟩ | ⟨-, _, _, _, -, h⟩ := blinkTick_frame now s <;> simp [h]

@[simp] theorem blinkTick_lastDisplayed (now : Millis) (s : State) :
    (blinkTick now s).lastDisplayed = s.lastDisplayed := by
  obtain ⟨-, _, _, _, _, h⟩ | ⟨-, _, _, _, -, h⟩ := blinkTick_frame now s <;> simp [h]

/-- A timer drives only a channel of the mode it is given. -/
theorem outAfter_selected (v : Variant) (k : TimerId) (m : ModeCode) (fires lvl : Bool) (out : BitVec 3)
    (hsel : out &&& ~~~(modeBits v m) = 0) : outAfter v k m fires lvl out &&& ~~~(modeBits v m) = 0 := by
  revert m fires lvl out
  cases v <;> cases k <;> decide

/-- An atomic tick keeps off what the mode does not select. -/
theorem blinkTick_indOut_selected (hsel : s.indOut &&& ~~~(modeBits s.cfg.variant s.indicatorMode) = 0) :
    (blinkTick now s).indOut &&& ~~~(modeBits s.cfg.variant s.indicatorMode) = 0 := by
  unfold blinkTick
  cases hv : s.cfg.variant with
  | single =>
    rw [hv] at hsel
    split
    · rw [blinkSample_single now s hv]
      exact hsel
    · rw [blinkAtomic_single now s hv]
      exact outAfter_selected _ _ _ _ _ _ hsel
  | multi =>
    rw [hv] at hsel
    split
    · rw [blinkSample_multi now s hv]
      exact hsel
    · rw [blinkAtomic_multi now s hv]
      exact outAfter_selected _ _ _ _ _ _ (outAfter_selected _ _ _ _ _ _ hsel)

/-- A tick in SINGLE moves no hardwired bit (10_state.md R27). -/
theorem blinkTick_indOut_hardwired (hv : s.cfg.variant = .single) : (blinkTick now s).indOut &&& 6 = s.indOut &&& 6 := by
  unfold blinkTick
  split
  · rw [blinkSample_single now s hv]
  · rw [blinkAtomic_single now s hv]
    exact (outAfter_single _ _ _ _).2

/-- Only a preemptible tick leaves a blink under way, and it keeps the mode it sampled (43_blink_scheduler.md R148). -/
theorem blinkTick_blinkPending (now : Millis) (s : State) :
    (s.cfg.blinkPreemptible = false ∧ (blinkTick now s).blinkPending = s.blinkPending) ∨
    (s.cfg.blinkPreemptible = true ∧ ∃ p, p.mode = s.indicatorMode ∧ (blinkTick now s).blinkPending = some p) := by
  obtain ⟨hatomic, _, _, _, _, h⟩ | ⟨hpre, _, _, p, hmode, h⟩ := blinkTick_frame now s
  · exact .inl ⟨hatomic, by rw [h, respond_blinkPending]⟩
  · exact .inr ⟨hpre, p, hmode, by rw [h]⟩

theorem Good.blinkTick (hgood : Good s) (now : Millis) : Good (blinkTick now s) := by
  have hcfg := blinkTick_cfg s now
  have hmode := blinkTick_indicatorMode now s
  refine ⟨?digit, ?mode, ?displayed, fun hv => ?single, fun hsel => ?selected, fun hatomic => ?atomic,
    fun p hp hv hactive => ?sampled, fun hv => ?oneTimer⟩
  case digit =>
    rw [blinkTick_currentDigit]
    exact hgood.digit
  case mode =>
    rw [hcfg, hmode]
    exact hgood.mode
  case displayed =>
    rw [blinkTick_lastDisplayed]
    exact hgood.displayed
  case single =>
    rw [hcfg] at hv
    rw [blinkTick_indOut_hardwired hv]
    exact hgood.single hv
  case selected =>
    rw [hcfg] at hsel ⊢
    rw [hmode]
    exact blinkTick_indOut_selected (hgood.selected hsel)
  case atomic =>
    rw [hcfg] at hatomic
    obtain ⟨-, hsame⟩ | ⟨hpre, -⟩ := blinkTick_blinkPending now s
    · rw [hsame]
      exact hgood.atomic hatomic
    · simp [hatomic] at hpre
  case sampled =>
    rw [hcfg] at hv
    rw [hmode]
    obtain ⟨-, hsame⟩ | ⟨-, q, hq, hsome⟩ := blinkTick_blinkPending now s
    · exact hgood.sampled p (hsame.symm.trans hp) hv hactive
    · obtain rfl : q = p := Option.some.inj (hsome.symm.trans hp)
      exact hq.symm.trans hactive
  case oneTimer =>
    rw [hcfg] at hv
    rw [blinkTick_timer1_single hv]
    exact hgood.oneTimer hv

/-! The drive of a blink under way. -/

/-- In SINGLE a drive in a mode sampled first lights the LED only where ACTIVE is the mode now too. -/
theorem outAfter_single_selected : ∀ (m m' : ModeCode) (fires lvl : Bool) (out : BitVec 3),
    (m' = modeActive → m = modeActive) → out &&& ~~~(modeBits .single m) = 0 →
    outAfter .single .t0 m' fires lvl out &&& ~~~(modeBits .single m) = 0 := by decide

theorem Good.blinkDrive {p : BlinkPending} (hgood : Good s) (hp : s.blinkPending = some p) : Good (blinkDrive p s) := by
  have hpre : s.cfg.blinkPreemptible = true := by
    by_contra hatomic
    have hnone := hgood.atomic (Bool.eq_false_iff.2 hatomic)
    rw [hp] at hnone
    cases hnone
  obtain ⟨out, hdrive⟩ := blinkDrive_frame p s
  have hout : (Machine.blinkDrive p s).indOut = out := by rw [hdrive, respond_indOut]
  have hsingle (hv : s.cfg.variant = .single) : out = pendingOut p .t0 s s.indOut := by
    rw [← hout, blinkDrive_single p s hv, respond_indOut]
  suffices hended : Good { s with indOut := out, blinkPending := none, draws := s.draws + 1 } by
    rw [hdrive]
    exact hended.respond .ok _
  refine ⟨hgood.digit, hgood.mode, hgood.displayed, fun hv => ?single, fun hsel => ?selected, fun _ => rfl, nofun,
    hgood.oneTimer⟩
  case single =>
    change out &&& 6 = 0
    rw [hsingle hv, (pendingOut_single (s := s) hv s.indOut).2]
    exact hgood.single hv
  case selected =>
    have hv : s.cfg.variant = .single := hsel.resolve_right (by simp [hpre])
    have hselected := hgood.selected (.inl hv)
    change out &&& ~~~(modeBits s.cfg.variant s.indicatorMode) = 0
    rw [hv] at hselected ⊢
    rw [hsingle hv, pendingOut_eq, hv]
    refine outAfter_single_selected _ _ _ _ _ (fun hactive => ?_) hselected
    obtain hdrawn | hdrawn := drawnMode_cases p .t0 s
    · exact hgood.sampled p hp hv (hdrawn.symm.trans hactive)
    · exact hdrawn.symm.trans hactive

/-! RENDER_TICK, and the step. -/

theorem Good.renderDigit (hgood : Good s) (d : Digit) : Good (renderDigit d s) := by
  obtain ⟨-, h⟩ | ⟨-, -, h⟩ | ⟨-, pat, hpat, h⟩ := renderDigit_spec d s <;> rw [h] <;> refine Good.respond ?_ _ _
  · exact hgood
  · exact hgood
  · have hd : d.toNat ≤ 9 := Nat.le_of_lt_succ (lt_of_fontRead _ _ _ hpat)
    exact ⟨hgood.digit, hgood.mode, fun _ => hd, hgood.single, hgood.selected, hgood.atomic, hgood.sampled,
      hgood.oneTimer⟩

/-- Every command keeps the good states. -/
theorem Good.exec {i : Instr} (hgood : Good s) (h : exec i s = .next t) : Good t := by
  obtain ⟨b, ts, -, rfl⟩ | ⟨now, -, rfl⟩ | ⟨-, rfl⟩ | ⟨d, -, rfl⟩ | ⟨r, g, b, br, m, -, rfl⟩ := exec_next_cases i s t h
  · exact hgood.edgeEvent b ts
  · exact hgood.blinkTick now
  · exact hgood.renderDigit s.currentDigit
  · obtain ⟨st, v, e, -⟩ := lookupDigit_spec d s
    rw [e]
    exact hgood.respond st v
  · exact hgood.respond .ok _

/-- Settles O45: each of a step's shapes is an operation that keeps Good. -/
theorem everyStepKeepsGoodStates : Obligations.EveryStepKeepsGoodStates := by
  intro s t hgood h
  obtain ⟨ins, rfl⟩ | ⟨ins, p, hp, -, rfl⟩ | ⟨rest, -, rfl⟩ | ⟨rest, -, rfl⟩ | ⟨w, rest, i, -, -, -, hexec⟩ |
    ⟨w, rest, e, -, -, -, rfl⟩ := step_cases s t h
  · exact hgood.withInputs ins
  · exact (hgood.withInputs ins).blinkDrive hp
  · exact good_assertReset _
  · exact (hgood.withInputs rest).releaseReset
  · exact (hgood.withInputs rest).exec hexec
  · exact (hgood.withInputs rest).respond .illegalCmd 0

/-- Settles O48: State.reset is what an assertion of rst on it, once released, leaves. -/
theorem resetStateIsGood : Obligations.ResetStateIsGood :=
  ⟨(good_assertReset State.reset).releaseReset, ⟨rfl, nofun⟩, nofun⟩

/-- No mode of MULTI selects two channels. -/
theorem channelsOn_le_one_of_selected : ∀ (m : ModeCode) (out : BitVec 3),
    out &&& ~~~(modeBits .multi m) = 0 → channelsOn out ≤ 1 := by decide

/-- Settles O49: in a good state only the mode's channel can be on, and an accepted EDGE turns it on. -/
theorem atMostOneChannelIsOn : Obligations.AtMostOneChannelIsOn := by
  refine ⟨fun s hgood hv hatomic => ?_, fun s b ts hv hopen => ⟨_, exec_edge b ts s, ?_⟩⟩
  · have hselected := hgood.selected (.inr hatomic)
    rw [hv] at hselected
    exact channelsOn_le_one_of_selected _ _ hselected
  · rw [edgeEvent_indOut_of_accepted ((gateRejects_false_iff ts s).2 hopen), acceptPress_indOut_multi hv]
    cases b <;> rfl

end Sys2Proof.Machine
end

section
/-! Which command writes which field (10_state.md R34), and what a run of commands adds to the press counts and to
last_event_time (42_input_capture.md R122 to R126). -/

namespace Sys2Proof.Machine

variable {s t : State} {i : Instr}

/-- Every command but RENDER_TICK leaves the frame state. -/
theorem exec_keeps_frame_state (h : exec i s = .next t) (hi : i ≠ .renderTick) :
    t.lastDisplayed = s.lastDisplayed ∧ t.pixStream = s.pixStream := by
  obtain ⟨b, ts, -, rfl⟩ | ⟨now, -, rfl⟩ | ⟨rfl, -⟩ | ⟨d, -, rfl⟩ | ⟨r, g, b, br, m, -, rfl⟩ := exec_next_cases i s t h
  · exact ⟨edgeEvent_lastDisplayed b ts s, edgeEvent_pixStream s b ts⟩
  · exact ⟨blinkTick_lastDisplayed now s, blinkTick_pixStream s now⟩
  · exact absurd rfl hi
  · obtain ⟨st, v, e, -⟩ := lookupDigit_spec d s
    rw [e]
    exact ⟨rfl, rfl⟩
  · exact ⟨rfl, rfl⟩

/-- A render leaves all but the frame state and the responses. -/
theorem renderDigit_frame (d : Digit) (s : State) :
    ∃ shown stream answers, renderDigit d s =
      { s with lastDisplayed := shown, pixStream := stream, responses := answers } := by
  obtain ⟨-, e⟩ | ⟨-, -, e⟩ | ⟨-, pat, -, e⟩ := renderDigit_spec d s <;> exact ⟨_, _, _, e⟩

/-- Every command but BLINK_TICK leaves the blink state. -/
theorem exec_keeps_blink_state (h : exec i s = .next t) (hi : ∀ now, i ≠ .blinkTick now) :
    t.timer0 = s.timer0 ∧ t.timer1 = s.timer1 ∧ t.blinkPending = s.blinkPending ∧ t.draws = s.draws := by
  obtain ⟨b, ts, -, rfl⟩ | ⟨now, rfl, -⟩ | ⟨-, rfl⟩ | ⟨d, -, rfl⟩ | ⟨r, g, b, br, m, -, rfl⟩ := exec_next_cases i s t h
  · exact ⟨edgeEvent_timer0 b ts s, edgeEvent_timer1 b ts s, edgeEvent_blinkPending b ts s, edgeEvent_draws b ts s⟩
  · exact absurd rfl (hi now)
  · obtain ⟨_, _, _, e⟩ := renderDigit_frame s.currentDigit s
    rw [e]
    exact ⟨rfl, rfl, rfl, rfl⟩
  · obtain ⟨st, v, e, -⟩ := lookupDigit_spec d s
    rw [e]
    exact ⟨rfl, rfl, rfl, rfl⟩
  · exact ⟨rfl, rfl, rfl, rfl⟩

@[simp] theorem blinkTick_lastEventTime (now : Millis) (s : State) :
    (blinkTick now s).lastEventTime = s.lastEventTime := by
  obtain ⟨-, _, _, _, _, h⟩ | ⟨-, _, _, _, -, h⟩ := blinkTick_frame now s <;> simp [h]

@[simp] theorem pressCount_blinkTick (b : Button) (now : Millis) (s : State) :
    pressCount b (blinkTick now s) = pressCount b s := by
  obtain ⟨-, _, _, _, _, h⟩ | ⟨-, _, _, _, -, h⟩ := blinkTick_frame now s <;> rw [h] <;> cases b <;> rfl

/-- A command that is no accepted press leaves the shared fields, and ind_out too if it is no BLINK_TICK. -/
theorem exec_keeps_shared_fields (h : exec i s = .next t) (hpress : ∀ b, acceptedOn b i s = false) :
    t.currentDigit = s.currentDigit ∧ t.indicatorMode = s.indicatorMode ∧ t.lastEventTime = s.lastEventTime ∧
    (∀ b, pressCount b t = pressCount b s) ∧ ((∀ now, i ≠ .blinkTick now) → t.indOut = s.indOut) := by
  obtain ⟨b, ts, rfl, rfl⟩ | ⟨now, rfl, rfl⟩ | ⟨-, rfl⟩ | ⟨d, -, rfl⟩ | ⟨r, g, b, br, m, -, rfl⟩ := exec_next_cases i s t h
  · rw [edgeEvent_of_rejected (gateRejects_of_not_acceptedOn hpress)]
    exact ⟨rfl, rfl, rfl, fun b => by cases b <;> rfl, fun _ => rfl⟩
  · exact ⟨blinkTick_currentDigit now s, blinkTick_indicatorMode now s, blinkTick_lastEventTime now s,
      fun b => pressCount_blinkTick b now s, fun hi => absurd rfl (hi now)⟩
  · obtain ⟨_, _, _, e⟩ := renderDigit_frame s.currentDigit s
    rw [e]
    exact ⟨rfl, rfl, rfl, fun b => by cases b <;> rfl, fun _ => rfl⟩
  · obtain ⟨st, v, e, -⟩ := lookupDigit_spec d s
    rw [e]
    exact ⟨rfl, rfl, rfl, fun b => by cases b <;> rfl, fun _ => rfl⟩
  · exact ⟨rfl, rfl, rfl, fun b => by cases b <;> rfl, fun _ => rfl⟩

theorem acceptedOn_edge (b b' : Button) (ts : Millis) (s : State) :
    acceptedOn b' (.edge b ts) s = true ↔ b = b' ∧ gateRejects ts s = false := by
  simp [acceptedOn]

/-- A command that is no EDGE is no press. -/
theorem exists_edge_of_acceptedOn {b : Button} (h : acceptedOn b i s = true) :
    ∃ ts, i = .edge b ts ∧ gateRejects ts s = false := by
  cases i with
  | edge b' ts =>
    obtain ⟨rfl, hgate⟩ := (acceptedOn_edge b' b ts s).1 h
    exact ⟨ts, rfl, hgate⟩
  | blinkTick now => cases h
  | renderTick => cases h
  | lookup d => cases h
  | encode r g b br m => cases h

/-- A command is no accepted press, or an EDGE that is one. -/
theorem acceptedOn_cases (i : Instr) (s : State) :
    (∀ b, acceptedOn b i s = false) ∨ ∃ b ts, i = .edge b ts ∧ gateRejects ts s = false := by
  by_cases hpress : ∃ b, acceptedOn b i s = true
  · obtain ⟨b, hb⟩ := hpress
    obtain ⟨ts, hi, hgate⟩ := exists_edge_of_acceptedOn hb
    exact .inr ⟨b, ts, hi, hgate⟩
  · exact .inl fun b => Bool.eq_false_iff.2 fun hb => hpress ⟨b, hb⟩

/-- How many presses of button b a command is: one or none. -/
def pressesOn (b : Button) (i : Instr) (s : State) : Nat := if acceptedOn b i s then 1 else 0

theorem pressesOn_of_unpressed {b : Button} (hb : acceptedOn b i s = false) : pressesOn b i s = 0 :=
  if_neg (by simp [hb])

theorem pressesOn_edge_of_accepted {ts : Millis} (hgate : gateRejects ts s = false) (b b' : Button) :
    pressesOn b' (.edge b ts) s = if b = b' then 1 else 0 := by
  simp only [pressesOn, acceptedOn_edge, hgate, and_true]

/-- A press count moves by the accepted presses of its own button (42_input_capture.md R126). -/
theorem pressCount_exec (h : exec i s = .next t) (b : Button) :
    pressCount b t = pressCount b s + BitVec.ofNat 32 (pressesOn b i s) := by
  obtain hpress | ⟨b', ts, rfl, hgate⟩ := acceptedOn_cases i s
  · obtain ⟨-, -, -, hcount, -⟩ := exec_keeps_shared_fields h hpress
    rw [hcount b, pressesOn_of_unpressed (hpress b)]
    exact (BitVec.add_zero _).symm
  · cases h
    rw [pressCount_edgeEvent_of_accepted hgate, pressesOn_edge_of_accepted hgate]
    split
    · rfl
    · exact (BitVec.add_zero _).symm

/-- Settles O52, group of fields by group of fields. -/
theorem eachFieldHasItsWriters : Obligations.EachFieldHasItsWriters := by
  intro i s
  obtain ⟨t, h⟩ := exec_answers i s
  obtain ⟨hrst, hin, -⟩ := exec_keeps_port h
  have hshared (hA : acceptedOn .A i s = false) (hB : acceptedOn .B i s = false) :=
    exec_keeps_shared_fields h fun b => by cases b <;> assumption
  have hcount (b : Button) (hb : acceptedOn b i s = false) : pressCount b t = pressCount b s := by
    rw [pressCount_exec h b, pressesOn_of_unpressed hb]
    exact BitVec.add_zero _
  refine ⟨t, h, exec_cfg h, hrst, hin, fun hA hB => ?shared, hcount .A, hcount .B, exec_keeps_frame_state h,
    exec_keeps_blink_state h, fun hi hA hB => ?levels⟩
  case shared =>
    obtain ⟨hdigit, hmode, hlast, -, -⟩ := hshared hA hB
    exact ⟨hdigit, hmode, hlast⟩
  case levels =>
    obtain ⟨-, -, -, -, hout⟩ := hshared hA hB
    exact hout hi

/-! Runs of commands. -/

theorem acceptedCount_cons_of_exec (h : exec i s = .next t) (b : Button) (is : List Instr) :
    acceptedCount b (i :: is) s = pressesOn b i s + acceptedCount b is t := by
  rw [acceptedCount, h]
  rfl

/-- A run always answers, and moves each press count by the presses it accepted. -/
theorem execAll_pressCount (is : List Instr) (s : State) :
    ∃ t, execAll is s = .next t ∧ ∀ b, pressCount b t = pressCount b s + BitVec.ofNat 32 (acceptedCount b is s) := by
  induction is generalizing s with
  | nil => exact ⟨s, rfl, fun _ => (BitVec.add_zero _).symm⟩
  | cons i is ih =>
    obtain ⟨u, hu⟩ := exec_answers i s
    obtain ⟨t, hrun, hcount⟩ := ih u
    refine ⟨t, (execAll_cons_of_exec hu is).trans hrun, fun b => ?_⟩
    rw [hcount b, pressCount_exec hu b, acceptedCount_cons_of_exec hu, BitVec.ofNat_add, BitVec.add_assoc]

/-- Settles O53: both counts, of the one run. -/
theorem pressCountsCountAcceptedPresses : Obligations.PressCountsCountAcceptedPresses := by
  intro is s
  obtain ⟨t, hrun, hcount⟩ := execAll_pressCount is s
  exact ⟨t, hrun, hcount .A, hcount .B⟩

/-- A command adds its own edge time, or none, to those of the run after it. -/
theorem edgeTimes_sublist_cons (i : Instr) (is : List Instr) : (edgeTimes is).Sublist (edgeTimes (i :: is)) := by
  cases i with
  | edge b ts => exact List.sublist_cons_self ts _
  | blinkTick now => exact List.Sublist.refl _
  | renderTick => exact List.Sublist.refl _
  | lookup d => exact List.Sublist.refl _
  | encode r g b br m => exact List.Sublist.refl _

theorem NondecreasingFrom.sublist {last : Millis} {ts ts' : List Millis} (h : NondecreasingFrom last ts')
    (hsub : ts.Sublist ts') : NondecreasingFrom last ts :=
  List.Pairwise.sublist (hsub.cons_cons last) h

theorem nondecreasingFrom_cons {last ts : Millis} {rest : List Millis} (h : NondecreasingFrom last (ts :: rest)) :
    last.toNat ≤ ts.toNat ∧ NondecreasingFrom ts rest := by
  obtain ⟨hfirst, hrest⟩ := List.pairwise_cons.1 h
  exact ⟨hfirst ts List.mem_cons_self, hrest⟩

/-- A command is one accepted press, of one button, that sets last_event_time, or none and leaves it. -/
theorem exec_press_cases (h : exec i s = .next t) :
    (pressesOn .A i s + pressesOn .B i s = 0 ∧ t.lastEventTime = s.lastEventTime) ∨
    ∃ b ts, i = .edge b ts ∧ gateRejects ts s = false ∧ pressesOn .A i s + pressesOn .B i s = 1 ∧
      t.lastEventTime = ts := by
  obtain hpress | ⟨b, ts, rfl, hgate⟩ := acceptedOn_cases i s
  · obtain ⟨-, -, hlast, -, -⟩ := exec_keeps_shared_fields h hpress
    exact .inl ⟨by rw [pressesOn_of_unpressed (hpress .A), pressesOn_of_unpressed (hpress .B)], hlast⟩
  · cases h
    refine .inr ⟨b, ts, rfl, hgate, ?_, edgeEvent_lastEventTime_of_accepted hgate⟩
    rw [pressesOn_edge_of_accepted hgate, pressesOn_edge_of_accepted hgate]
    cases b <;> rfl

/-- An accepted edge that is not before the last accepted one is a window after it (42_input_capture.md R122). -/
theorem window_le_of_accepted {ts : Millis} (hgate : gateRejects ts s = false)
    (hle : s.lastEventTime.toNat ≤ ts.toNat) : s.lastEventTime.toNat + s.cfg.debounceWindowMs.toNat ≤ ts.toNat := by
  have hopen := (gateRejects_false_iff ts s).1 hgate
  rw [BitVec.toNat_sub_of_le hle] at hopen
  omega

/-- Settles O54, by induction on the run: an accepted press comes a window after the one before it, and anything else leaves
last_event_time. -/
theorem acceptedPressesAreAWindowApart : Obligations.AcceptedPressesAreAWindowApart := by
  intro is
  induction is with
  | nil => exact fun s _ => ⟨s, rfl, Nat.le_refl _, by simp [acceptedCount]⟩
  | cons i is ih =>
    intro s hordered
    obtain ⟨u, hu⟩ := exec_answers i s
    rw [execAll_cons_of_exec hu, acceptedCount_cons_of_exec hu, acceptedCount_cons_of_exec hu, Nat.add_add_add_comm,
      ← exec_cfg hu]
    obtain ⟨hnone, hlast⟩ | ⟨b, ts, rfl, hgate, hone, hlast⟩ := exec_press_cases hu
    · rw [hnone, Nat.zero_add, ← hlast]
      rw [← hlast] at hordered
      exact ih u (hordered.sublist (edgeTimes_sublist_cons i is))
    · obtain ⟨hle, hrest⟩ := nondecreasingFrom_cons hordered
      rw [← hlast] at hrest
      obtain ⟨t, hrun, hmono, htotal⟩ := ih u hrest
      have hwindow := window_le_of_accepted hgate hle
      rw [← exec_cfg hu] at hwindow
      rw [hlast] at hmono htotal
      refine ⟨t, hrun, hle.trans hmono, ?_⟩
      rw [hone, Nat.add_mul, Nat.one_mul]
      omega

end Sys2Proof.Machine
end
